-- ==== Sys2Proof/Word.lean ====
section
/-!
DEFINITION. The word and index types of the QDH block (spec/00_scope.md R9, spec/20_memory.md R50).
-/

namespace Sys2Proof

/-- A 16-bit mask, one bit per encoder: bit `i` belongs to encoder `i` (R9, R51). -/
abbrev Mask := BitVec 16

/-- A lane id, 0..15: the encoder a per-lane element or a take operation belongs to (R50, R52). -/
abbrev LaneId := Fin 16

/-- The 24-bit response word of a CONSUMER operation (R85, format P). -/
abbrev Response := BitVec 24

end Sys2Proof
end

