-- ==== Sys2Proof/Config.lean ====
section
/-!
DEFINITION. The build-time parameters of the QDH block (spec/00_scope.md R6). They are constants of a built block, not
registers: no operation writes them (spec/10_state.md R31). The two parameters the spec leaves OPEN with no default have
no value here either: `Config.openTimeout` and `Config.openCeiling` are constants without a body.
-/

namespace Sys2Proof

/-- The five values an entry of `QTABLE` may take (R74, format Q). A closed type, so that "no other value may stand in
the table" holds of every table that can be written down. -/
inductive QEntry
  /-- 0: neither channel changed. -/
  | idle
  /-- +1: one step forward. -/
  | forward
  /-- -1: one step backward. -/
  | backward
  /-- +127: both channels changed, positive sentinel. -/
  | ambigPos
  /-- -127: both channels changed, negative sentinel. -/
  | ambigNeg
  deriving DecidableEq, Repr

/-- Which outside agent triggers SWUPD (R6, R111). A schedule is a premise of a claim, never part of the machine: no
meaning reads this parameter (R111, spec/93_implementation_defined.md U7). -/
inductive SwStrobeSource
  | consumerTick
  | scanTick
  deriving DecidableEq, Repr

/-- The parameters of R6. `NUM_ENC` is fixed at 16 and is no parameter. The bounds of `DEBOUNCE_CYCLE_TIMEOUT`
(0..65535) and `IDLE_CEILING` (0..65534), and the five values of a table entry, are carried by the types;
`DEBOUNCE_DEPTH >= 1` is `Config.wf`. -/
structure Config where
  /-- `DEBOUNCE_DEPTH`. -/
  debounceDepth : Nat
  /-- `DEBOUNCE_CYCLE_TIMEOUT`, written T in the spec's formulas. -/
  debounceCycleTimeout : Fin 65536
  /-- `IDLE_CEILING`, written C in the spec's formulas. -/
  idleCeiling : Fin 65535
  /-- `QTABLE`, indexed by the key. -/
  qtable : Vector QEntry 16
  /-- `SW_STROBE_SOURCE`. -/
  swStrobeSource : SwStrobeSource
  deriving DecidableEq, Repr

namespace Config

/-- T, as a natural number. -/
abbrev T (c : Config) : Nat := c.debounceCycleTimeout.val

/-- C, as a natural number. -/
abbrev C (c : Config) : Nat := c.idleCeiling.val

/-- The one constraint of R6 that the types do not carry: the debounce buffer has at least one slot. -/
def wf (c : Config) : Bool := decide (1 ≤ c.debounceDepth)

/-- FREE VALUE (R6: OPEN, D10). The timeout of the block that `State.reset` speaks of: some value in 0..65535. It has no
body, so no proof can lean on a value of it. notes/assumptions/2.md. -/
opaque openTimeout : Fin 65536

/-- FREE VALUE (R6: OPEN, D9). The idle ceiling of the block that `State.reset` speaks of: some value in 0..65534.
notes/assumptions/2.md. -/
opaque openCeiling : Fin 65535

end Config

end Sys2Proof
end

