-- ==== Sys2Proof/Syntax.lean ====
section
/-!
DEFINITION. The operations of QDH-OPS 1.0 as syntax: one constructor per row of spec/opcode_table.json, and the operation
words in which the outside agents present them (spec/30_encoding.md R70, R78, R79, R82).
-/

namespace Sys2Proof

/-- An operation. The `id` field that RD_STABLE, RD_UP, RD_DOWN and the reserved words ignore is kept, so that no bit of
a word is lost in decoding (R83, R88). -/
inductive Instr
  /-- SCAN: channel A mask, channel B mask (R120). -/
  | scan (a b : Mask)
  /-- SWUPD: raw switch-closure mask (R100). -/
  | swupd (sw : Mask)
  /-- TAKE_STEPS id (R150). -/
  | takeSteps (id : LaneId)
  /-- TAKE_SUM id (R151). -/
  | takeSum (id : LaneId)
  /-- TAKE_BOTH id (R152). -/
  | takeBoth (id : LaneId)
  /-- RD_STABLE, with its ignored `id` field (R106). -/
  | rdStable (x : BitVec 4)
  /-- RD_UP, with its ignored `id` field (R107). -/
  | rdUp (x : BitVec 4)
  /-- RD_DOWN, with its ignored `id` field (R108). -/
  | rdDown (x : BitVec 4)
  /-- A reserved command word with operation code 0x0 (R88). -/
  | reservedOp0 (x : BitVec 4)
  /-- A reserved command word with operation code 0x7 (R88). -/
  | reservedOp7 (x : BitVec 4)
  /-- A reserved command word with operation code `op` in 0x8..0xF (R88); the range is `Instr.wf`'s check. -/
  | reservedOp8F (op x : BitVec 4)
  deriving DecidableEq, Repr

/-- An operation word on the port its strobe belongs to. The port, not a bit of the word, tells the format, and every
format has one length (R70, R89). -/
inductive OpWord
  /-- Format S on the scan port, selected by `scan_stb` (R78). -/
  | scan (w : BitVec 32)
  /-- Format W on the switch port, selected by `sw_stb` (R79). -/
  | switch (w : BitVec 16)
  /-- Format H on the command port, selected by `cmd_stb` (R82). -/
  | command (w : BitVec 8)
  deriving DecidableEq, Repr

end Sys2Proof
end

