-- ==== Sys2Proof/WellFormed.lean ====
section
/-!
DEFINITION. Which operations are well formed. The types carry every range but one: a lane id is 0..15 and every 16-bit
mask is a valid operand (spec/20_memory.md R52, spec/30_encoding.md R78, R79), so the one check left is that
`reservedOp8F` holds an operation code of its table row, whose bit 3 is 1.
-/

namespace Sys2Proof

/-- The operation is one that some operation word stands for. -/
def Instr.wf : Instr → Bool
  | .scan _ _ => true
  | .swupd _ => true
  | .takeSteps _ => true
  | .takeSum _ => true
  | .takeBoth _ => true
  | .rdStable _ => true
  | .rdUp _ => true
  | .rdDown _ => true
  | .reservedOp0 _ => true
  | .reservedOp7 _ => true
  | .reservedOp8F op _ => decide (8 ≤ op.toNat)

end Sys2Proof
end

