-- ==== Sys2Proof/Decode.lean ====
section
/-!
DEFINITION. The decoder, total on every word of every format, and the encoder, both written from the encodings of
spec/30_encoding.md (R78, R79, R82, R84, R88).
-/

namespace Sys2Proof

/-- Bits 7:4 of a command word (R82). -/
def opField (w : BitVec 8) : BitVec 4 := w.extractLsb' 4 4

/-- Bits 3:0 of a command word (R82). -/
def idField (w : BitVec 8) : BitVec 4 := w.extractLsb' 0 4

/-- The lane an `id` field names: unsigned, used as is (R83). -/
def laneOfField (x : BitVec 4) : LaneId := x.toFin

/-- The `id` field that names a lane (R83). -/
def fieldOfLane (id : LaneId) : BitVec 4 := BitVec.ofFin id

/-- The command map of R84: operation code in bits 7:4, lane id in bits 3:0. All 256 words have a meaning; those with
operation code 0x0 or 0x7 to 0xF decode to the reserved constructors (R88; their number: notes/assumptions/9.md). -/
def decodeCommand (w : BitVec 8) : Instr :=
  if opField w = 0x0#4 then .reservedOp0 (idField w)
  else if opField w = 0x1#4 then .takeSteps (laneOfField (idField w))
  else if opField w = 0x2#4 then .takeSum (laneOfField (idField w))
  else if opField w = 0x3#4 then .takeBoth (laneOfField (idField w))
  else if opField w = 0x4#4 then .rdStable (idField w)
  else if opField w = 0x5#4 then .rdUp (idField w)
  else if opField w = 0x6#4 then .rdDown (idField w)
  else if opField w = 0x7#4 then .reservedOp7 (idField w)
  else .reservedOp8F (opField w) (idField w)

/-- The operation a word stands for. Every scan word is a SCAN, `{ a, b }` (R78), and every switch word a SWUPD (R79). -/
def decode : OpWord → Instr
  | .scan w => .scan (w.extractLsb' 16 16) (w.extractLsb' 0 16)
  | .switch w => .swupd w
  | .command w => decodeCommand w

/-- A command word from its two fields (R82). -/
def commandWord (op id : BitVec 4) : BitVec 8 := op ++ id

/-- The word of an operation (R78, R79, R84). -/
def encode : Instr → OpWord
  | .scan a b => .scan (a ++ b)
  | .swupd sw => .switch sw
  | .takeSteps id => .command (commandWord 0x1#4 (fieldOfLane id))
  | .takeSum id => .command (commandWord 0x2#4 (fieldOfLane id))
  | .takeBoth id => .command (commandWord 0x3#4 (fieldOfLane id))
  | .rdStable x => .command (commandWord 0x4#4 x)
  | .rdUp x => .command (commandWord 0x5#4 x)
  | .rdDown x => .command (commandWord 0x6#4 x)
  | .reservedOp0 x => .command (commandWord 0x0#4 x)
  | .reservedOp7 x => .command (commandWord 0x7#4 x)
  | .reservedOp8F op x => .command (commandWord op x)

/-- Why a number of bits is no operation word. -/
inductive WordReject
  /-- No format has this many bits: the lengths are 32, 16 and 8 (R89). -/
  | noFormatOfWidth (nbits : Nat)
  /-- The value does not fit into the format's bits. -/
  | valueTooWide (nbits w : Nat)
  deriving DecidableEq, Repr

/-- The operation word of `nbits` bits with value `w`. Each format has a length of its own (R89), so the length tells the
port: 32 bits the scan port, 16 the switch port, 8 the command port. -/
def wordOfBits (nbits w : Nat) : Except WordReject OpWord :=
  if 2 ^ nbits ≤ w then .error (.valueTooWide nbits w)
  else if nbits = 32 then .ok (.scan (BitVec.ofNat 32 w))
  else if nbits = 16 then .ok (.switch (BitVec.ofNat 16 w))
  else if nbits = 8 then .ok (.command (BitVec.ofNat 8 w))
  else .error (.noFormatOfWidth nbits)

/-- The operation that an operation word of `nbits` bits with value `w` stands for, numbered as spec/opcode_table.json
numbers them. An operation is one parallel word on one port: no byte order enters (spec/20_memory.md R51). -/
def decodeTableWord (nbits w : Nat) : Option Instr :=
  match wordOfBits nbits w with
  | .ok x => some (decode x)
  | .error _ => none

end Sys2Proof
end

