-- ==== Sys2Proof/Machine/Params.lean ====
section
/-!
DEFINITION. What the parameters mean: the transition table's values, codes and classes (spec/30_encoding.md R74), the
default table (R75), the derived widths of spec/00_scope.md R6, and the configuration that `State.reset` carries.
-/

namespace Sys2Proof.Machine

/-- The direction of a directional result, or "event" (R123). -/
inductive Dir
  | forward
  | backward
  deriving DecidableEq, Repr

/-- The class of a table result (R74, R123). -/
inductive ResultClass
  | idle
  | ambiguous
  | directional (d : Dir)
  deriving DecidableEq, Repr

/-- The signed value of a table entry (R74). -/
def entryValue : QEntry → Int
  | .idle => 0
  | .forward => 1
  | .backward => -1
  | .ambigPos => 127
  | .ambigNeg => -127

/-- The 8-bit two's complement code of a table entry (R74). -/
def entryCode (q : QEntry) : BitVec 8 := BitVec.ofInt 8 (entryValue q)

/-- `class(r)` (R123). The two sentinels are treated alike (R74). -/
def classOf : QEntry → ResultClass
  | .idle => .idle
  | .forward => .directional .forward
  | .backward => .directional .backward
  | .ambigPos => .ambiguous
  | .ambigNeg => .ambiguous

/-- The result value of a direction, +1 or -1 (R123). -/
def dirValue : Dir → Int
  | .forward => 1
  | .backward => -1

/-- `TableRead(key)` (R12, R122): all 16 keys have an entry. -/
def tableRead (c : Config) (key : BitVec 4) : QEntry := c.qtable.get key.toFin

/-- The default transition table, key 0 first (R75, D6): `[0, -1, +1, +127, +1, 0, -127, -1, -1, -127, 0, +1, +127, +1,
-1, 0]`. PRESUMED by the spec itself (general knowledge, spec/93_implementation_defined.md G1): notes/assumptions/3.md. -/
def defaultQTable : Vector QEntry 16 :=
  #v[.idle, .backward, .forward, .ambigPos, .forward, .idle, .ambigNeg, .backward,
     .backward, .ambigNeg, .idle, .forward, .ambigPos, .forward, .backward, .idle]

/-- `ceil(log2(n))` for `n >= 1`. -/
def ceilLog2 (n : Nat) : Nat := if n ≤ 1 then 0 else Nat.log2 (n - 1) + 1

/-- `IDLE_W`, the width in bits of an idle counter (R6). -/
def idleW (c : Config) : Nat := max 1 (ceilLog2 (c.C + 1))

/-- `WIDX_W`, the width in bits of the buffer write index (R6). -/
def widxW (c : Config) : Nat := max 1 (ceilLog2 c.debounceDepth)

/-- The configuration of the block that `State.reset` speaks of: the defaults of R6 where R6 gives one, and the two OPEN
parameters as free values. notes/assumptions/2.md. -/
def builtConfig : Config where
  debounceDepth := 10
  debounceCycleTimeout := Config.openTimeout
  idleCeiling := Config.openCeiling
  qtable := defaultQTable
  swStrobeSource := .consumerTick

end Sys2Proof.Machine
end

