-- ==== Sys2Proof/Machine/State.lean ====
section
/-!
DEFINITION. The state of the QDH block (spec/10_state.md R20), the stimulus the outside agents present to it
(spec/30_encoding.md R71), and the reasons a step could stop.
-/

namespace Sys2Proof.Machine

/-- The direction latch of a lane (R23). A three-constructor type, so that the code `0b10` cannot be written down
(R77, spec/93_implementation_defined.md U4). -/
inductive Latch
  /-- NONE: no directional result since reset. -/
  | none
  /-- FWD: the most recent directional result was +1. -/
  | fwd
  /-- BWD: the most recent directional result was -1. -/
  | bwd
  deriving DecidableEq, Repr

/-- The six per-encoder elements of one lane (R20). -/
structure Lane where
  /-- `PA[i]`, the previous sample of channel A (R21). -/
  pa : Bool
  /-- `PB[i]`, the previous sample of channel B (R21). -/
  pb : Bool
  /-- `IDLE[i]`, `0..IDLE_CEILING` (R22); the bound is an invariant (R33.1). -/
  idle : Nat
  /-- `LATCH[i]` (R23). -/
  latch : Latch
  /-- `ACC[i]`, an `i8` (R24). -/
  acc : BitVec 8
  /-- `SUM[i]`, a `u16` (R25). -/
  sum : BitVec 16
  deriving DecidableEq, Repr

/-- What the input pins carry in one clock (R71). `none` is a strobe that is low: what its data pins then carry enters no
rule and is not represented. -/
structure Pins where
  /-- `rst`. -/
  rst : Bool
  /-- `scan_stb` high with `{ a_in, b_in }` (R78). -/
  scan : Option (BitVec 32)
  /-- `sw_stb` high with `sw_in` (R79). -/
  switch : Option (BitVec 16)
  /-- `cmd_stb` high with `cmd` (R82). -/
  command : Option (BitVec 8)
  deriving DecidableEq, Repr

/-- The state. The eleven elements of R20 are `lanes` (six elements each), `buf`, `widx`, `stable`, `up` and `down`.
Three fields are the MODEL's own: `cfg` carries the build-time parameters, which no step changes; `rsp` shows the
response of the clock just performed; `pending` is what the outside agents will present, one entry a clock. -/
structure State where
  /-- The parameters of R6, constants of the built block (R31). MODEL's own: notes/assumptions/1.md. -/
  cfg : Config
  /-- `PA`, `PB`, `IDLE`, `LATCH`, `ACC`, `SUM` of lanes 0..15. -/
  lanes : Vector Lane 16
  /-- `BUF[0..DEBOUNCE_DEPTH-1]` (R27). -/
  buf : List Mask
  /-- `WIDX`, `0..DEBOUNCE_DEPTH-1` (R28). -/
  widx : Nat
  /-- `STABLE` (R29). -/
  stable : Mask
  /-- `UP` (R30). -/
  up : Mask
  /-- `DOWN` (R30). -/
  down : Mask
  /-- The response of the clock just performed, `none` where it is not meaningful (R71, R190). MODEL's own, an output
  that no operation reads: notes/assumptions/4.md. -/
  rsp : Option Response
  /-- What the input pins will carry in the clocks to come, the next one first. MODEL's own: notes/assumptions/5.md. -/
  pending : List Pins
  deriving DecidableEq, Repr

/-- A fault. THE TYPE HAS NO CONSTRUCTOR: "The block raises no synchronous exception of any kind" (R170), and the fault
outcome is never produced by this block. notes/assumptions/6.md. -/
inductive Fault
  deriving DecidableEq, Repr

/-- Why a step gives an operation no meaning. -/
inductive Refusal
  /-- Raised by `exec` alone, for an operation of the table that has no meaning yet; safe. No arm of this model raises
  it. -/
  | notModelled (mnemonic : String)
  deriving DecidableEq, Repr

/-- A lane after reset (R20, R191): the encoder believed at 00, no scan seen, no direction latched, nothing accumulated. -/
def Lane.reset : Lane :=
  { pa := false, pb := false, idle := 0, latch := .none, acc := 0#8, sum := 0#16 }

/-- The state after reset of a block built with the parameters `c` (R20, R190, R191), with nothing pending. -/
def State.resetWith (c : Config) : State where
  cfg := c
  lanes := Vector.replicate 16 Lane.reset
  buf := List.replicate c.debounceDepth 0#16
  widx := 0
  stable := 0#16
  up := 0#16
  down := 0#16
  rsp := none
  pending := []

/-- The state after reset. Every element has the reset value of R20; the parameters are `builtConfig`, whose two OPEN
ones are free values. -/
def State.reset : State := State.resetWith builtConfig

end Sys2Proof.Machine
end

