-- ==== Sys2Proof/Machine/Operands.lean ====
section
/-!
DEFINITION. How operands are taken out of words and results are put into them: lane extraction (spec/30_encoding.md R72),
the key (R73), the latch code (R77) and the response word (R85).
-/

namespace Sys2Proof.Machine

/-- Bit `i` of a mask: the sample of encoder `i` (R72). No other bit enters lane `i`. -/
def laneBit (m : Mask) (i : LaneId) : Bool := m.getLsbD i.val

/-- The key of a lane, `{ PA, PB, ca, cb }`, the first most significant (R73, format K). -/
def laneKey (l : Lane) (ca cb : Bool) : BitVec 4 :=
  BitVec.ofBool l.pa ++ BitVec.ofBool l.pb ++ BitVec.ofBool ca ++ BitVec.ofBool cb

/-- The 2-bit code of a latch value (R77, format L). -/
def latchCode : Latch → BitVec 2
  | .none => 0b00#2
  | .fwd => 0b01#2
  | .bwd => 0b11#2

/-- The latch value of a direction (R130). -/
def latchOf : Dir → Latch
  | .forward => .fwd
  | .backward => .bwd

/-- `sext_24(ACC[id])`, the response of TAKE_STEPS (R85). -/
def stepsResponse (acc : BitVec 8) : Response := acc.signExtend 24

/-- `zext_24(SUM[id])`, the response of TAKE_SUM (R85). -/
def sumResponse (sum : BitVec 16) : Response := sum.setWidth 24

/-- `{ ACC[id], SUM[id] }`, the response of TAKE_BOTH (R85). -/
def bothResponse (acc : BitVec 8) (sum : BitVec 16) : Response := acc ++ sum

/-- `zext_24` of a status mask, the response of the RD operations (R85). -/
def maskResponse (m : Mask) : Response := m.setWidth 24

/-- The response to a reserved command word (R85, R88). -/
def reservedResponse : Response := 0x000000#24

/-- The typed `i8` result of a TAKE_STEPS response, `signed_8(rsp[7:0])` (R85). -/
def stepsOfTakeSteps (r : Response) : Int := (r.extractLsb' 0 8).toInt

/-- The typed `i8` result of a TAKE_BOTH response, `signed_8(rsp[23:16])` (R85). -/
def stepsOfTakeBoth (r : Response) : Int := (r.extractLsb' 16 8).toInt

/-- The typed `u16` result of a TAKE_SUM or TAKE_BOTH response, `rsp[15:0]` (R85). -/
def sumOfResponse (r : Response) : Nat := (r.extractLsb' 0 16).toNat

end Sys2Proof.Machine
end

