-- ==== Sys2Proof/Machine/Flags.lean ====
section
/-!
DEFINITION. The status masks and the latch test: stable state and edge masks (spec/40_switch_debounce.md R102, R103), and
`matches` of the hysteresis filter (spec/41_quadrature_scan.md R128). The block has no arithmetic condition code
(spec/10_state.md R35).
-/

namespace Sys2Proof.Machine

/-- The bitwise OR of all slots (R102). -/
def orAll (buf : List Mask) : Mask := buf.foldr (· ||| ·) 0#16

/-- `(prev ^ stable) & prev`: was set, is now clear (R103). -/
def upEdges (prev stable : Mask) : Mask := (prev ^^^ stable) &&& prev

/-- `(prev ^ stable) & stable`: was clear, is now set (R103). -/
def downEdges (prev stable : Mask) : Mask := (prev ^^^ stable) &&& stable

/-- `matches(r, LATCH)` for a directional result (R23, R128): NONE matches nothing. -/
def latchMatches : Dir → Latch → Bool
  | .forward, .fwd => true
  | .forward, .none => false
  | .forward, .bwd => false
  | .backward, .bwd => true
  | .backward, .none => false
  | .backward, .fwd => false

end Sys2Proof.Machine
end

