-- ==== Sys2Proof/Machine/Ops.lean ====
section
/-!
DEFINITION. The named operations over the state: lanes (spec/00_scope.md R11), buffer slots (R12), the response port, and
the reset pin (spec/70_reset_and_hazards.md R190). The block has no exception to take (spec/60_exceptions.md R170, R178)
and no memory (spec/20_memory.md R50).
-/

namespace Sys2Proof.Machine

namespace State

/-- The elements of lane `i`. -/
def lane (s : State) (i : LaneId) : Lane := s.lanes.get i

/-- Lane `i` with new elements, every other lane as it was. -/
def setLane (s : State) (i : LaneId) (l : Lane) : State := { s with lanes := s.lanes.set i.val l i.isLt }

/-- Every lane from its own old elements, all at once (R26, R120). -/
def mapLanes (s : State) (f : LaneId → Lane → Lane) : State :=
  { s with lanes := Vector.ofFn fun i => f i (s.lane i) }

/-- `BufRead(k)` (R12). Slots are `0..DEBOUNCE_DEPTH-1`; no operation reads another (R52), and what this function gives
there enters no meaning. -/
def bufRead (s : State) (k : Nat) : Mask := s.buf.getD k 0#16

/-- `BufWrite(k, v)` (R12). `WIDX` is always a slot (R33.3). -/
def bufWrite (s : State) (k : Nat) (v : Mask) : State := { s with buf := s.buf.set k v }

/-- `rsp <- v` (R12). -/
def respond (s : State) (v : Response) : State := { s with rsp := some v }

/-- What `rst` high at a clock edge does (R190): every element takes its reset value and the response is not meaningful.
The parameters are constants of the built block, and reset does not touch them (R192). -/
def resetPin (s : State) : State := { State.resetWith s.cfg with pending := s.pending }

end State

end Sys2Proof.Machine
end

