-- ==== Sys2Proof/Machine/Reserved.lean ====
section
/-!
DEFINITION. The reserved command words (spec/30_encoding.md R88): "The block performs no operation for them: no state
element changes and the response is `0x000000`."
-/

namespace Sys2Proof.Machine

/-- Operation code 0x0 (R88). -/
def execReservedOp0 (_x : BitVec 4) (s : State) : Host.Outcome State Fault Refusal :=
  .next (s.respond reservedResponse)

/-- Operation code 0x7 (R88). -/
def execReservedOp7 (_x : BitVec 4) (s : State) : Host.Outcome State Fault Refusal :=
  .next (s.respond reservedResponse)

/-- Operation codes 0x8 to 0xF (R88). -/
def execReservedOp8F (_op _x : BitVec 4) (s : State) : Host.Outcome State Fault Refusal :=
  .next (s.respond reservedResponse)

end Sys2Proof.Machine
end

