-- ==== Sys2Proof/Machine/Scan.lean ====
section
/-!
DEFINITION. SCAN: quadrature decode with direction-latch hysteresis (spec/41_quadrature_scan.md R120).
-/

namespace Sys2Proof.Machine

/-- The table result of a lane's key (R122). -/
def laneResult (c : Config) (ca cb : Bool) (l : Lane) : QEntry := tableRead c (laneKey l ca cb)

/-- `cycles = IDLE + 1`, never truncated (R127). -/
def cycles (l : Lane) : Nat := l.idle + 1

/-- The acceptance test of an event in direction `d`, the hysteresis filter (R128). -/
def accepts (c : Config) (d : Dir) (l : Lane) : Bool := decide (c.T ≤ cycles l) || latchMatches d l.latch

/-- The idle path: `IDLE <- sat(IDLE + 1, IDLE_CEILING)`, nothing else (R126). -/
def idlePath (c : Config) (l : Lane) : Lane := { l with idle := min (l.idle + 1) c.C }

/-- `ACC <- signed_8(wrap_8(ACC + r))` (R129, R133). -/
def addStep (acc : BitVec 8) (d : Dir) : BitVec 8 := BitVec.ofInt 8 (acc.toInt + dirValue d)

/-- `SUM <- wrap_16(SUM + cycles)` (R129, R134). -/
def addCycles (sum : BitVec 16) (n : Nat) : BitVec 16 := BitVec.ofNat 16 (sum.toNat + n)

/-- The effects of acceptance (R129); all reads are of the values from before. -/
def acceptEvent (d : Dir) (l : Lane) : Lane := { l with acc := addStep l.acc d, sum := addCycles l.sum (cycles l) }

/-- The effects of every event, accepted or rejected: the latch takes its direction and the idle counter is cleared
(R130). -/
def latchEvent (d : Dir) (l : Lane) : Lane := { l with latch := latchOf d, idle := 0 }

/-- The path of a directional result (R127 to R130, R132). -/
def eventPath (c : Config) (d : Dir) (l : Lane) : Lane :=
  latchEvent d (if accepts c d l then acceptEvent d l else l)

/-- `PA <- ca; PB <- cb`, whatever the result (R131). -/
def storeSamples (ca cb : Bool) (l : Lane) : Lane := { l with pa := ca, pb := cb }

/-- `LaneStep(i, ca, cb)` (R120). -/
def laneStep (c : Config) (ca cb : Bool) (l : Lane) : Lane :=
  match classOf (laneResult c ca cb l) with
  | .idle => storeSamples ca cb (idlePath c l)
  | .ambiguous => storeSamples ca cb (idlePath c l)
  | .directional d => storeSamples ca cb (eventPath c d l)

/-- SCAN (R120): every lane from its own bits of `a` and `b`, all in one atomic operation. No response. -/
def execScan (a b : Mask) (s : State) : Host.Outcome State Fault Refusal :=
  .next (s.mapLanes fun i l => laneStep s.cfg (laneBit a i) (laneBit b i) l)

end Sys2Proof.Machine
end

