-- ==== Sys2Proof/Machine/Switch.lean ====
section
/-!
DEFINITION. The switch debouncer and edge detector: SWUPD, RD_STABLE, RD_UP, RD_DOWN (spec/40_switch_debounce.md R100,
R106, R107, R108).
-/

namespace Sys2Proof.Machine

/-- Step 1 of SWUPD: the sample replaces the oldest one and the index advances (R101). -/
def pushSample (sw : Mask) (s : State) : State :=
  { s.bufWrite s.widx sw with widx := (s.widx + 1) % s.cfg.debounceDepth }

/-- Steps 2 to 4 of SWUPD: the new stable state is the OR of all slots, the edges are against the old `STABLE`, and the
new one is remembered (R102, R103, R104). -/
def updateStable (s : State) : State :=
  { s with
    up := upEdges s.stable (orAll s.buf)
    down := downEdges s.stable (orAll s.buf)
    stable := orAll s.buf }

/-- SWUPD (R100): the steps of R101 to R104 as one atomic operation. No response. -/
def execSwupd (sw : Mask) (s : State) : Host.Outcome State Fault Refusal :=
  .next (updateStable (pushSample sw s))

/-- RD_STABLE (R106). The `id` field is ignored (R83). -/
def execRdStable (_x : BitVec 4) (s : State) : Host.Outcome State Fault Refusal :=
  .next (s.respond (maskResponse s.stable))

/-- RD_UP (R107): reading does not clear `UP`. -/
def execRdUp (_x : BitVec 4) (s : State) : Host.Outcome State Fault Refusal :=
  .next (s.respond (maskResponse s.up))

/-- RD_DOWN (R108): reading does not clear `DOWN`. -/
def execRdDown (_x : BitVec 4) (s : State) : Host.Outcome State Fault Refusal :=
  .next (s.respond (maskResponse s.down))

end Sys2Proof.Machine
end

