-- ==== Sys2Proof/Machine/Take.lean ====
section
/-!
DEFINITION. Taking the accumulators: TAKE_STEPS, TAKE_SUM, TAKE_BOTH (spec/42_take_accumulators.md R150, R151, R152). Each
returns the value from before the operation and leaves zero.
-/

namespace Sys2Proof.Machine

/-- `ACC <- 0` (R150). -/
def clearAcc (l : Lane) : Lane := { l with acc := 0#8 }

/-- `SUM <- 0` (R151). -/
def clearSum (l : Lane) : Lane := { l with sum := 0#16 }

/-- TAKE_STEPS id (R150). -/
def execTakeSteps (id : LaneId) (s : State) : Host.Outcome State Fault Refusal :=
  .next ((s.setLane id (clearAcc (s.lane id))).respond (stepsResponse (s.lane id).acc))

/-- TAKE_SUM id (R151). -/
def execTakeSum (id : LaneId) (s : State) : Host.Outcome State Fault Refusal :=
  .next ((s.setLane id (clearSum (s.lane id))).respond (sumResponse (s.lane id).sum))

/-- TAKE_BOTH id (R152). -/
def execTakeBoth (id : LaneId) (s : State) : Host.Outcome State Fault Refusal :=
  .next ((s.setLane id (clearSum (clearAcc (s.lane id)))).respond (bothResponse (s.lane id).acc (s.lane id).sum))

end Sys2Proof.Machine
end

