-- ==== Sys2Proof/Machine/Dispatch.lean ====
section
/-!
DEFINITION. The meaning of every operation: one arm per constructor of Instr, each one direct call.
-/

namespace Sys2Proof.Machine

def exec (i : Instr) (s : State) : Host.Outcome State Fault Refusal :=
  match i with
  | .scan a b => Sys2Proof.Machine.execScan a b s
  | .swupd sw => Sys2Proof.Machine.execSwupd sw s
  | .takeSteps id => Sys2Proof.Machine.execTakeSteps id s
  | .takeSum id => Sys2Proof.Machine.execTakeSum id s
  | .takeBoth id => Sys2Proof.Machine.execTakeBoth id s
  | .rdStable x => Sys2Proof.Machine.execRdStable x s
  | .rdUp x => Sys2Proof.Machine.execRdUp x s
  | .rdDown x => Sys2Proof.Machine.execRdDown x s
  | .reservedOp0 x => Sys2Proof.Machine.execReservedOp0 x s
  | .reservedOp7 x => Sys2Proof.Machine.execReservedOp7 x s
  | .reservedOp8F op x => Sys2Proof.Machine.execReservedOp8F op x s

end Sys2Proof.Machine
end

