-- ==== Sys2Proof/Machine/Clock.lean ====
section
/-!
DEFINITION. One clock of the block: what the pins of one clock make it do (spec/30_encoding.md R71), strobes in the same
clock (spec/60_exceptions.md R174), and the reset pin (spec/70_reset_and_hazards.md R190).
-/

namespace Sys2Proof.Machine

/-- Go on with `f` where an outcome is a next state; a stop stays that stop. -/
def andThen (o : Host.Outcome State Fault Refusal) (f : State → Host.Outcome State Fault Refusal) :
    Host.Outcome State Fault Refusal :=
  match o with
  | .next s => f s
  | .fault r => .fault r
  | .refused r => .refused r

/-- What one strobe does: low, nothing; high, the operation its word stands for (R71). -/
def strobe (w : Option OpWord) (s : State) : Host.Outcome State Fault Refusal :=
  match w with
  | none => .next s
  | some x => exec (decode x) s

/-- The pins of a clock in which every strobe is low. -/
def Pins.quiet : Pins := { rst := false, scan := none, switch := none, command := none }

/-- The pins of a clock in which exactly one strobe is high, with this word. -/
def pinsOf : OpWord → Pins
  | .scan w => { Pins.quiet with scan := some w }
  | .switch w => { Pins.quiet with switch := some w }
  | .command w => { Pins.quiet with command := some w }

/-- The operations the strobes of one clock call for, in the order of R174: first the CONSUMER command, then SCAN, then
SWUPD. With no strobe high the block holds its state (R180). -/
def strobes (p : Pins) (s : State) : Host.Outcome State Fault Refusal :=
  andThen (andThen (strobe (p.command.map .command) s) (strobe (p.scan.map .scan))) (strobe (p.switch.map .switch))

/-- One clock: with `rst` high every strobe is ignored (R190). -/
def clock (p : Pins) (s : State) : Host.Outcome State Fault Refusal :=
  if p.rst then .next s.resetPin else strobes p s

/-- What the pins carry in the next clock: the first pending entry; with nothing pending no agent drives a strobe. -/
def nextPins (s : State) : Pins := s.pending.headD Pins.quiet

/-- The state a clock starts from: its pins are taken from the pending ones, and the response port means nothing until a
command of this clock sets it (R71). -/
def beginClock (s : State) : State := { s with rsp := none, pending := s.pending.tail }

/-- The same state with an operation word as the very next clock's stimulus. -/
def present (x : OpWord) (s : State) : State := { s with pending := pinsOf x :: s.pending }

end Sys2Proof.Machine
end

