-- ==== Sys2Proof/Machine/Step.lean ====
section
/-!
DEFINITION. One step of the machine is one clock of the block (spec/30_encoding.md R71). The block fetches nothing
(spec/10_state.md R38): the next operation comes from the pins, whose values to come State holds in `pending`.
-/

namespace Sys2Proof.Machine

/-- One clock. -/
def step (s : State) : Host.Outcome State Fault Refusal := clock (nextPins s) (beginClock s)

/-- `s` with an operation word of `nbits` bits and value `w` presented in the very next clock, on the port its length
tells, no other strobe high; `s` itself where no format has that word. notes/assumptions/5.md. -/
def State.withFetchWord (s : State) (nbits w : Nat) : State :=
  match wordOfBits nbits w with
  | .ok x => present x s
  | .error _ => s

end Sys2Proof.Machine
end

