-- ==== Sys2Proof/Machine/Trace.lean ====
section
/-!
DEFINITION. Operation traces (spec/00_scope.md R13): one total order of atomic operations (spec/20_memory.md R56), each
applied to the state the previous one left.
-/

namespace Sys2Proof.Machine

/-- A trace, read top to bottom. -/
def runTrace : List Instr → State → Host.Outcome State Fault Refusal
  | [], s => .next s
  | i :: is, s => andThen (exec i s) (runTrace is)

/-- The sum over a trace of a quantity of each operation, given the operation, the state before it and the state after
it. -/
def totalAlong (f : Instr → State → State → Int) : List Instr → State → Int
  | [], _ => 0
  | i :: is, s =>
    match exec i s with
    | .next t => f i s t + totalAlong f is t
    | .fault _ => 0
    | .refused _ => 0

/-- A condition on every operation of a trace and the state it runs in. -/
def everyOp (p : Instr → State → Prop) : List Instr → State → Prop
  | [], _ => True
  | i :: is, s =>
    p i s ∧
      match exec i s with
      | .next t => everyOp p is t
      | .fault _ => True
      | .refused _ => True

/-- The event of lane `id` in an operation: the direction of a directional result of its SCAN, none otherwise (R123). -/
def eventOf (id : LaneId) (i : Instr) (s : State) : Option Dir :=
  match i with
  | .scan a b =>
    match classOf (laneResult s.cfg (laneBit a id) (laneBit b id) (s.lane id)) with
    | .directional d => some d
    | .idle => none
    | .ambiguous => none
  | _ => none

/-- The ACCEPTED event of lane `id` in an operation (R128). -/
def acceptedEvent (id : LaneId) (i : Instr) (s : State) : Option Dir :=
  match eventOf id i s with
  | some d => if accepts s.cfg d (s.lane id) then some d else none
  | none => none

/-- What an operation adds to the true net step count of lane `id`: +1 for an accepted FORWARD event, -1 for an accepted
BACKWARD one (R154). -/
def acceptedSteps (id : LaneId) (i : Instr) (s : State) : Int :=
  match acceptedEvent id i s with
  | some d => dirValue d
  | none => 0

/-- What an operation adds to the true cycle sum of lane `id`: the `cycles` of an accepted event (R154). -/
def acceptedCycles (id : LaneId) (i : Instr) (s : State) : Int :=
  match acceptedEvent id i s with
  | some _ => (cycles (s.lane id) : Int)
  | none => 0

/-- The steps of lane `id` that an operation's response delivers to the CONSUMER (R154). -/
def stepsDelivered (id : LaneId) (i : Instr) (rsp : Option Response) : Int :=
  match i, rsp with
  | .takeSteps j, some r => if j = id then stepsOfTakeSteps r else 0
  | .takeBoth j, some r => if j = id then stepsOfTakeBoth r else 0
  | _, _ => 0

/-- The cycle sum of lane `id` that an operation's response delivers to the CONSUMER (R154). -/
def sumDelivered (id : LaneId) (i : Instr) (rsp : Option Response) : Int :=
  match i, rsp with
  | .takeSum j, some r => if j = id then (sumOfResponse r : Int) else 0
  | .takeBoth j, some r => if j = id then (sumOfResponse r : Int) else 0
  | _, _ => 0

end Sys2Proof.Machine
end

