-- ==== Sys2Proof/Safety.lean ====
section
/-!
DEFINITION. What counts as a safe state and a safe run, in the terms claims use: the invariants of spec/10_state.md R33,
the no-wrap premises of spec/41_quadrature_scan.md R133 and R134, and which part of the state is the block's own.
-/

namespace Sys2Proof.Machine

/-- The invariants of one lane: R33.1, R33.2 and R33.8. -/
abbrev LaneInv (c : Config) (l : Lane) : Prop :=
  l.idle ≤ c.C ∧ latchCode l.latch ≠ 0b10#2 ∧ (l.latch = .none → l.acc = 0#8 ∧ l.sum = 0#16)

/-- The invariants of R33, with the two facts that the parameters and R27 give: the buffer has `DEBOUNCE_DEPTH >= 1`
slots. -/
structure Inv (s : State) : Prop where
  /-- `DEBOUNCE_DEPTH >= 1` (R6). -/
  depth_pos : 1 ≤ s.cfg.debounceDepth
  /-- `BUF` has `DEBOUNCE_DEPTH` slots (R27). -/
  buf_full : s.buf.length = s.cfg.debounceDepth
  /-- R33.1, R33.2, R33.8. -/
  lanes_inv : ∀ i : LaneId, LaneInv s.cfg (s.lane i)
  /-- R33.3. -/
  widx_slot : s.widx < s.cfg.debounceDepth
  /-- R33.4. -/
  stable_or : s.stable = orAll s.buf
  /-- R33.5. -/
  up_down : s.up &&& s.down = 0#16
  /-- R33.6. -/
  up_stable : s.up &&& s.stable = 0#16
  /-- R33.7. -/
  down_stable : s.down &&& ~~~s.stable = 0#16

/-- No operation of a trace takes the step accumulator of lane `id` out of -128..127 (R133). -/
def NoAccWrap (id : LaneId) : List Instr → State → Prop :=
  everyOp fun i s => -128 ≤ (s.lane id).acc.toInt + acceptedSteps id i s ∧
    (s.lane id).acc.toInt + acceptedSteps id i s ≤ 127

/-- No operation of a trace takes the cycle sum of lane `id` past 65535 (R134). -/
def NoSumWrap (id : LaneId) : List Instr → State → Prop :=
  everyOp fun i s => ((s.lane id).sum.toNat : Int) + acceptedCycles id i s ≤ 65535

/-- The state without the two fields that belong to the outside of the block: what the response port shows and what the
agents will present. Two states with the same `blockOf` are the same block (R20, R32). -/
def State.blockOf (s : State) : State := { s with rsp := none, pending := [] }

/-- The debounce half of two states is the same (R40). -/
abbrev SameDebounce (s t : State) : Prop :=
  t.buf = s.buf ∧ t.widx = s.widx ∧ t.stable = s.stable ∧ t.up = s.up ∧ t.down = s.down

/-- The quadrature half of two states is the same (R40). -/
abbrev SameQuadrature (s t : State) : Prop := ∀ i : LaneId, t.lane i = s.lane i

/-- What no operation changes: the parameters (R31) and what the agents will present. -/
abbrev SameSurround (s t : State) : Prop := t.cfg = s.cfg ∧ t.pending = s.pending

/-- SWUPD operations only, with these samples, the first one first. -/
def swupds (samples : List Mask) : List Instr := samples.map .swupd

/-- The switch samples of a trace, the first one first. -/
def samplesOf : List Instr → List Mask
  | [] => []
  | .swupd sw :: is => sw :: samplesOf is
  | _ :: is => samplesOf is

/-- The number of SCANs in a trace. -/
def scansIn (ops : List Instr) : Nat :=
  ops.countP fun i => match i with
    | .scan _ _ => true
    | _ => false

/-- The operation is a CONSUMER command and so has a response (R85). -/
def isCommand : Instr → Bool
  | .scan _ _ => false
  | .swupd _ => false
  | _ => true

/-- The operation is one of the reserved command words (R88). -/
def isReserved : Instr → Bool
  | .reservedOp0 _ => true
  | .reservedOp7 _ => true
  | .reservedOp8F _ _ => true
  | _ => false

/-- The lane whose `ACC` an operation other than SCAN reads and clears (R40). -/
def takesAcc : Instr → Option LaneId
  | .takeSteps id => some id
  | .takeBoth id => some id
  | _ => none

/-- The lane whose `SUM` an operation other than SCAN reads and clears (R40). -/
def takesSum : Instr → Option LaneId
  | .takeSum id => some id
  | .takeBoth id => some id
  | _ => none

/-- The operation reads or writes the quadrature half (R40). -/
def usesQuadrature : Instr → Bool
  | .scan _ _ => true
  | .takeSteps _ => true
  | .takeSum _ => true
  | .takeBoth _ => true
  | _ => false

/-- The operation reads or writes the debounce half (R40). -/
def usesDebounce : Instr → Bool
  | .swupd _ => true
  | .rdStable _ => true
  | .rdUp _ => true
  | .rdDown _ => true
  | _ => false

/-- Two operations that share no written state, as R61 lists them: operations of different halves, the RD operations and
reserved words among themselves, and takes that clear no common register. -/
def shareNoState (i j : Instr) : Bool :=
  !(usesQuadrature i && usesQuadrature j) && !(usesDebounce i && usesDebounce j) ||
  isCommand i && isCommand j &&
    (takesAcc i == none || takesAcc j == none || takesAcc i != takesAcc j) &&
    (takesSum i == none || takesSum j == none || takesSum i != takesSum j)

/-- The operations the strobes of one clock call for, in the order of R174. -/
def opsOfPins (p : Pins) : List Instr :=
  (p.command.map fun w => decode (.command w)).toList ++ (p.scan.map fun w => decode (.scan w)).toList ++
    (p.switch.map fun w => decode (.switch w)).toList

/-- Every SWUPD of a trace is followed, before the next one, by an RD_UP and an RD_DOWN; the two flags say which reads of
the last SWUPD are still owed. -/
def readsOwed : Bool → Bool → List Instr → Bool
  | up, down, [] => !up && !down
  | up, down, .swupd _ :: is => !up && !down && readsOwed true true is
  | _, down, .rdUp _ :: is => readsOwed false down is
  | up, _, .rdDown _ :: is => readsOwed up false is
  | up, down, _ :: is => readsOwed up down is

/-- Every SCAN of a trace is followed at once by a SWUPD, and no other SWUPD occurs. -/
def updatesWithScans : List Instr → Bool
  | [] => true
  | .scan _ _ :: .swupd _ :: is => updatesWithScans is
  | .scan _ _ :: _ => false
  | .swupd _ :: _ => false
  | _ :: is => updatesWithScans is

/-- The trace keeps the schedule of `SW_STROBE_SOURCE` (R111): under `CONSUMER_TICK` the CONSUMER triggers one SWUPD a
tick, just before it reads `UP` and `DOWN`; under `SCAN_TICK` the SCANNER triggers one with every SCAN. A premise of
claims, never part of the machine. -/
def keepsSchedule (src : SwStrobeSource) (ops : List Instr) : Bool :=
  match src with
  | .consumerTick => readsOwed false false ops
  | .scanTick => updatesWithScans ops

end Sys2Proof.Machine
end

