-- ==== Sys2Proof/Certificates/Slice0/Obligations.lean ====
section
/-!
DEFINITION. The statements about the QDH block, for the provers. Each says which rule or section of spec/ it formalises.
Where the spec marks a rule as its own inference ("[derived: from ...]"), the docstring says so and the statement's basis
is `derived`.
-/

open Sys2Proof Sys2Proof.Machine

/-! ### Encodings -/

/-- Every well-formed operation is what its word decodes to, with every operand at every value (30_encoding.md sections 6
and 8). -/
def Obligations.DecodeOfEncodeIsTheOperation : Prop :=
  ∀ i : Instr, i.wf = true → decode (encode i) = i

/-- Every word of every format stands for one well-formed operation (30_encoding.md sections 6 and 8), and its encoding is
that word. That the encoding gives the word back where the `id` field is ignored is the MODEL'S CHOICE: it keeps the field
as an operand (notes/assumptions/12.md), while by the spec such words are one operation. -/
def Obligations.EncodeOfDecodeIsTheWord : Prop :=
  ∀ w : OpWord, (decode w).wf = true ∧ encode (decode w) = w

/-- R84: the operation codes of the command word, whether each uses its `id` field, the bits 4 and 5 of a take, and that
SCAN and SWUPD have no command word: each is selected by its own strobe, whatever the word on its port. -/
def Obligations.CommandWordsHaveTheirOperationCodes : Prop :=
  (∀ id : LaneId,
    decode (.command (BitVec.ofNat 8 (0x10 + id.val))) = .takeSteps id ∧
    decode (.command (BitVec.ofNat 8 (0x20 + id.val))) = .takeSum id ∧
    decode (.command (BitVec.ofNat 8 (0x30 + id.val))) = .takeBoth id) ∧
  (∀ x : Fin 16,
    (∃ y, decode (.command (BitVec.ofNat 8 (0x40 + x.val))) = .rdStable y ∧
      ∀ s, exec (.rdStable y) s = exec (.rdStable 0#4) s) ∧
    (∃ y, decode (.command (BitVec.ofNat 8 (0x50 + x.val))) = .rdUp y ∧ ∀ s, exec (.rdUp y) s = exec (.rdUp 0#4) s) ∧
    (∃ y, decode (.command (BitVec.ofNat 8 (0x60 + x.val))) = .rdDown y ∧
      ∀ s, exec (.rdDown y) s = exec (.rdDown 0#4) s)) ∧
  (∀ w : BitVec 8, w.toNat < 0x10 ∨ 0x70 ≤ w.toNat ↔ isReserved (decode (.command w)) = true) ∧
  (∀ w : BitVec 8, 0x10 ≤ w.toNat → w.toNat < 0x40 →
    (w.getLsbD 4 = (takesAcc (decode (.command w))).isSome) ∧ (w.getLsbD 5 = (takesSum (decode (.command w))).isSome)) ∧
  (∀ w : BitVec 8, isCommand (decode (.command w)) = true) ∧
  (∀ w : BitVec 32, ∃ a b, decode (.scan w) = .scan a b ∧
    ∀ s, clock { Pins.quiet with scan := some w } s = exec (.scan a b) s) ∧
  (∀ w : BitVec 16, decode (.switch w) = .swupd w ∧
    ∀ s, clock { Pins.quiet with switch := some w } s = exec (.swupd w) s)

/-- R78: a scan word carries the channel A mask in bits 31:16 and the channel B mask in bits 15:0, and every one of the
2^32 words is a SCAN. -/
def Obligations.ScanWordIsTheTwoMasks : Prop :=
  ∀ w : BitVec 32, ∃ a b : Mask, decode (.scan w) = .scan a b ∧ w.toNat = 2 ^ 16 * a.toNat + b.toNat ∧
    ∀ i : LaneId, a.getLsbD i.val = w.getLsbD (16 + i.val) ∧ b.getLsbD i.val = w.getLsbD i.val

/-- Words written out by the spec (95_test_vectors.md V-E2 and V-E4; the SWUPD word: 40_switch_debounce.md section 2, the
example) decode to the operations it writes beside them. A sanity statement. Three things in it are the MODEL'S CHOICE:
the port is told by the number of bits (notes/assumptions/15.md); the reads and the reserved words keep as operands the
fields that V-E4 calls ignored (notes/assumptions/12.md); and a reserved word is one of three constructors, where V-E4
writes "(reserved)" alone (notes/assumptions/11.md). -/
def Obligations.WrittenOutWordsDecode : Prop :=
  decodeTableWord 32 0x80010003 = some (.scan 0x8001#16 0x0003#16) ∧
  decodeTableWord 16 0x0004 = some (.swupd 0x0004#16) ∧
  decodeTableWord 8 0b00010000 = some (.takeSteps 0) ∧
  decodeTableWord 8 0b00011111 = some (.takeSteps 15) ∧
  decodeTableWord 8 0b00100101 = some (.takeSum 5) ∧
  decodeTableWord 8 0b00111001 = some (.takeBoth 9) ∧
  decodeTableWord 8 0b01000000 = some (.rdStable 0#4) ∧
  decodeTableWord 8 0b01001111 = some (.rdStable 15#4) ∧
  decodeTableWord 8 0b01010000 = some (.rdUp 0#4) ∧
  decodeTableWord 8 0b01100000 = some (.rdDown 0#4) ∧
  decodeTableWord 8 0b00001111 = some (.reservedOp0 15#4) ∧
  decodeTableWord 8 0b01111010 = some (.reservedOp7 10#4) ∧
  decodeTableWord 8 0b11110000 = some (.reservedOp8F 15#4 0#4)

/-- R73: the key of a lane is `8*PA + 4*PB + 2*ca + cb`. -/
def Obligations.KeyIsPreviousThenCurrent : Prop :=
  ∀ (l : Lane) (ca cb : Bool),
    (laneKey l ca cb).toNat = 8 * l.pa.toNat + 4 * l.pb.toNat + 2 * ca.toNat + cb.toNat

/-- R74: the value, the 8-bit code and the class of every table entry; the two sentinels are alike. -/
def Obligations.TableEntriesHaveFiveValues : Prop :=
  (entryValue .idle = 0 ∧ entryCode .idle = 0x00#8 ∧ classOf .idle = .idle) ∧
  (entryValue .forward = 1 ∧ entryCode .forward = 0x01#8 ∧ classOf .forward = .directional .forward) ∧
  (entryValue .backward = -1 ∧ entryCode .backward = 0xFF#8 ∧ classOf .backward = .directional .backward) ∧
  (entryValue .ambigPos = 127 ∧ entryCode .ambigPos = 0x7F#8 ∧ classOf .ambigPos = .ambiguous) ∧
  (entryValue .ambigNeg = -127 ∧ entryCode .ambigNeg = 0x81#8 ∧ classOf .ambigNeg = .ambiguous) ∧
  (∀ (c : Config) (key : BitVec 4), entryValue (tableRead c key) ∈ [0, 1, -1, 127, -127]) ∧
  (∀ q : QEntry, classOf q = .ambiguous ↔ entryValue q = 127 ∨ entryValue q = -127)

/-- The properties of the default table that 30_encoding.md section 4 derives from it: which keys are of which class,
complementing both channels changes nothing, complementing one or exchanging A and B exchanges FORWARD and BACKWARD, and
one full cycle is four steps. The table itself is PRESUMED (notes/assumptions/3.md), and the inference is the spec's. -/
def Obligations.DefaultTableCountsEveryEdge : Prop :=
  (∀ k : Fin 16, (classOf (defaultQTable.get k) = .idle ↔ k.val ∈ [0, 5, 10, 15]) ∧
    (classOf (defaultQTable.get k) = .ambiguous ↔ k.val ∈ [3, 6, 9, 12]) ∧
    (classOf (defaultQTable.get k) = .directional .forward ↔ k.val ∈ [2, 4, 11, 13]) ∧
    (classOf (defaultQTable.get k) = .directional .backward ↔ k.val ∈ [1, 7, 8, 14])) ∧
  (∀ pa pb ca cb : Bool,
    let cls := fun (pa pb ca cb : Bool) =>
      classOf (defaultQTable.get (laneKey { Lane.reset with pa := pa, pb := pb } ca cb).toFin)
    let swap := fun r : ResultClass => match r with
      | .directional .forward => .directional .backward
      | .directional .backward => .directional .forward
      | .idle => .idle
      | .ambiguous => .ambiguous
    cls (!pa) (!pb) (!ca) (!cb) = cls pa pb ca cb ∧
    cls (!pa) pb (!ca) cb = swap (cls pa pb ca cb) ∧
    cls pa (!pb) ca (!cb) = swap (cls pa pb ca cb) ∧
    cls pb pa cb ca = swap (cls pa pb ca cb) ∧
    ((pa != ca) != (pb != cb) → ∃ d, cls pa pb ca cb = .directional d))

/-- The latch code of 30_encoding.md section 5: a directional result matches the latched direction exactly when the two
low bits of its table value are the latch's code. -/
def Obligations.LatchCodeEqualityIsTheMatch : Prop :=
  (latchCode .none = 0b00#2 ∧ latchCode .fwd = 0b01#2 ∧ latchCode .bwd = 0b11#2) ∧
  ∀ (d : Dir) (x : Latch), (latchMatches d x = true ↔ BitVec.ofInt 2 (dirValue d) = latchCode x) ∧
    (latchMatches d x = true ↔ x = latchOf d)

/-- The response words of 30_encoding.md section 7: the typed results come back out of them, and the three bytes are what
the table of that section lists. -/
def Obligations.ResponseWordsCarryTheTypedResults : Prop :=
  ∀ (acc : BitVec 8) (sum m : BitVec 16),
    stepsOfTakeSteps (stepsResponse acc) = acc.toInt ∧
    (stepsResponse acc).toInt = acc.toInt ∧
    (∀ k, 8 ≤ k → k < 24 → (stepsResponse acc).getLsbD k = acc.getLsbD 7) ∧
    sumOfResponse (sumResponse sum) = sum.toNat ∧
    (sumResponse sum).toNat = sum.toNat ∧
    stepsOfTakeBoth (bothResponse acc sum) = acc.toInt ∧
    sumOfResponse (bothResponse acc sum) = sum.toNat ∧
    (bothResponse acc sum).toNat = 2 ^ 16 * acc.toNat + sum.toNat ∧
    (maskResponse m).toNat = m.toNat ∧
    reservedResponse = 0x000000#24

/-! ### Reset, clocks, and what never happens -/

/-- 70_reset_and_hazards.md section 1 ("The reset state in words"): every lane believes its encoder is at 00, has seen no
scan, has no direction latched and has accumulated nothing; every buffer slot is open; nothing is stable and no edge is
flagged. It holds whatever the parameters, and of the reset state the machine names. -/
def Obligations.ResetStateIsAllZero : Prop :=
  State.reset = State.resetWith builtConfig ∧
  ∀ c : Config,
    (∀ i : LaneId, ((State.resetWith c).lane i).pa = false ∧ ((State.resetWith c).lane i).pb = false ∧
      ((State.resetWith c).lane i).idle = 0 ∧ ((State.resetWith c).lane i).latch = .none ∧
      ((State.resetWith c).lane i).acc.toInt = 0 ∧ ((State.resetWith c).lane i).sum.toNat = 0) ∧
    (State.resetWith c).buf.length = c.debounceDepth ∧
    (∀ k, k < c.debounceDepth → (State.resetWith c).bufRead k = 0x0000#16) ∧
    (State.resetWith c).widx = 0 ∧ (State.resetWith c).stable = 0x0000#16 ∧
    (State.resetWith c).up = 0x0000#16 ∧ (State.resetWith c).down = 0x0000#16

/-- 70_reset_and_hazards.md section 1 (Reset): with `rst` high every element takes its reset value and every strobe of
that clock is ignored; the parameters stay; the response is not meaningful. -/
def Obligations.ResetPinResetsEveryElement : Prop :=
  ∀ (s : State) (p : Pins) (rest : List Pins), s.pending = p :: rest → p.rst = true →
    ∃ t, step s = .next t ∧
      (∀ i : LaneId, t.lane i = { pa := false, pb := false, idle := 0, latch := .none, acc := 0#8, sum := 0#16 }) ∧
      t.buf = List.replicate s.cfg.debounceDepth 0x0000#16 ∧
      t.widx = 0 ∧ t.stable = 0x0000#16 ∧ t.up = 0x0000#16 ∧ t.down = 0x0000#16 ∧
      t.rsp = none ∧ t.cfg = s.cfg ∧ t.pending = rest

/-- A STEP RUNS THE DECODED OPERATION. Where exactly one strobe is high, the step is `exec` of the operation its word
stands for, in the state whose pins have been taken and whose response port means nothing yet; and the word that
`withFetchWord` places is the one the very next step runs (30_encoding.md section 2; the placing of a word and the telling
of its port by its length are the model's, notes/assumptions/5.md and 15.md). -/
def Obligations.StepRunsTheDecodedOperation : Prop :=
  (∀ (s : State) (x : OpWord) (rest : List Pins), s.pending = pinsOf x :: rest →
    step s = exec (decode x) { s with rsp := none, pending := rest }) ∧
  (∀ (s : State) (nbits w : Nat) (i : Instr), decodeTableWord nbits w = some i →
    step (s.withFetchWord nbits w) = exec i { s with rsp := none })

/-- R174: the operations of one clock are performed in the order command, then SCAN and SWUPD, whose mutual order is
immaterial; so the response is that of the command alone, on the state from before the clock. -/
def Obligations.SimultaneousStrobesRunCommandFirst : Prop :=
  ∀ s : State, (nextPins s).rst = false →
    ∃ t1 t2 t3 u : State,
      strobe ((nextPins s).command.map .command) { s with rsp := none, pending := s.pending.tail } = .next t1 ∧
      strobe ((nextPins s).scan.map .scan) t1 = .next t2 ∧
      strobe ((nextPins s).switch.map .switch) t2 = .next t3 ∧
      step s = .next t3 ∧
      t3.rsp = t1.rsp ∧
      strobe ((nextPins s).switch.map .switch) t1 = .next u ∧
      strobe ((nextPins s).scan.map .scan) u = .next t3

/-- 60_exceptions.md section 6: with no strobe high the block holds its state; so does a machine with nothing pending. -/
def Obligations.QuietClockHoldsTheState : Prop :=
  ∀ s : State, s.pending = [] ∨ (∃ rest, s.pending = Pins.quiet :: rest) →
    ∃ t, step s = .next t ∧ t.blockOf = s.blockOf ∧ t.rsp = none

/-- R170: every operation, on every operand value, in every state, completes; so does every clock; and there is no fault
to record. -/
def Obligations.EveryOperationCompletes : Prop :=
  (∀ (i : Instr) (s : State), ∃ t, exec i s = .next t) ∧
  (∀ s : State, ∃ t, step s = .next t) ∧
  (Fault → False) ∧
  (∀ (ops : List Instr) (s : State), ∃ t, runTrace ops s = .next t)

/-- 10_state.md section 4 and 70_reset_and_hazards.md section 1: the parameters are constants of the built block; no
operation writes them and reset does not touch them. -/
def Obligations.ParametersNeverChange : Prop :=
  (∀ (s t : State), step s = .next t → t.cfg = s.cfg) ∧
  (∀ (k : Nat) (s t : State), Host.Core.run Sys2Proof.core k s = .next t → Sys2Proof.Machine.State.cfg t = s.cfg)

/-- 10_state.md section 4: the response is an output, not state. What the response port showed before an operation
changes nothing the operation does; a command sets it, and no other operation touches it. -/
def Obligations.ResponsePortIsNeverRead : Prop :=
  ∀ (i : Instr) (s t : State) (r : Option Response), exec i s = .next t →
    ∃ t', exec i { s with rsp := r } = .next t' ∧ t'.blockOf = t.blockOf ∧ t'.pending = t.pending ∧
      (isCommand i = true → t'.rsp = t.rsp ∧ t.rsp.isSome = true) ∧
      (isCommand i = false → t'.rsp = r ∧ t.rsp = s.rsp)

/-- One total order (20_memory.md section 6; R174): a run of clocks without reset does to the block exactly what the trace
of the operations that the strobes call for does, clock by clock, command first. So what is proved of traces holds of runs
of `step`. -/
def Obligations.ClockRunsAreOperationTraces : Prop :=
  ∀ (ps : List Pins) (s : State), (∀ p ∈ ps, p.rst = false) → s.pending = ps →
    ∃ t u : State, Host.Core.run Sys2Proof.core ps.length s = .next t ∧
      runTrace (ps.flatMap opsOfPins) s = .next u ∧ t.blockOf = u.blockOf ∧ t.pending = []

/-! ### Invariants -/

/-- The reset state meets the invariants of 10_state.md section 5, whatever the parameters. -/
def Obligations.InvariantsHoldAtReset : Prop :=
  Inv State.reset ∧ ∀ c : Config, c.wf = true → Inv (State.resetWith c)

/-- The invariants of 10_state.md section 5 are preserved by every operation. -/
def Obligations.EveryOperationKeepsInvariants : Prop :=
  ∀ (i : Instr) (s t : State), Inv s → exec i s = .next t → Inv t

/-- The invariants of 10_state.md section 5 are preserved by every step, simultaneous strobes and the reset pin among
them, from every state that meets them; so every state that a block with any parameters reaches from reset, whatever the
agents present, meets them. -/
def Obligations.EveryStepKeepsInvariants : Prop :=
  (∀ s t : State, Inv s → step s = .next t → Inv t) ∧
  (∀ (c : Config) (ps : List Pins) (k : Nat) (t : State), c.wf = true →
    Host.Core.run Sys2Proof.core k ({ State.resetWith c with pending := ps } : State) = .next t → Inv t)

/-- 00_scope.md section 4, "Derived widths": in every state that meets the invariants the idle counters and the write
index fit the widths the spec derives for them, and those widths are the least that hold the ceiling and the last
slot. -/
def Obligations.CountersFitTheirDerivedWidths : Prop :=
  ∀ s : State, Inv s →
    (∀ i : LaneId, (s.lane i).idle < 2 ^ idleW s.cfg) ∧ s.widx < 2 ^ widxW s.cfg ∧
    (∀ n, 1 ≤ n → s.cfg.C < 2 ^ n → idleW s.cfg ≤ n) ∧
    (∀ n, 1 ≤ n → s.cfg.debounceDepth ≤ 2 ^ n → widxW s.cfg ≤ n)

/-- What each operation writes, and that it writes nothing else (10_state.md section 7, the access matrix). -/
def Obligations.OperationsWriteOnlyTheirElements : Prop :=
  ∀ (i : Instr) (s t : State), exec i s = .next t →
    SameSurround s t ∧
    match i with
    | .scan _ _ => SameDebounce s t ∧ t.rsp = s.rsp
    | .swupd _ => SameQuadrature s t ∧ t.rsp = s.rsp
    | .takeSteps id =>
      SameDebounce s t ∧ (∀ j, j ≠ id → t.lane j = s.lane j) ∧ t.lane id = { s.lane id with acc := 0#8 }
    | .takeSum id =>
      SameDebounce s t ∧ (∀ j, j ≠ id → t.lane j = s.lane j) ∧ t.lane id = { s.lane id with sum := 0#16 }
    | .takeBoth id =>
      SameDebounce s t ∧ (∀ j, j ≠ id → t.lane j = s.lane j) ∧
        t.lane id = { s.lane id with acc := 0#8, sum := 0#16 }
    | .rdStable _ => SameDebounce s t ∧ SameQuadrature s t
    | .rdUp _ => SameDebounce s t ∧ SameQuadrature s t
    | .rdDown _ => SameDebounce s t ∧ SameQuadrature s t
    | .reservedOp0 _ => SameDebounce s t ∧ SameQuadrature s t
    | .reservedOp7 _ => SameDebounce s t ∧ SameQuadrature s t
    | .reservedOp8F _ _ => SameDebounce s t ∧ SameQuadrature s t

/-- 20_memory.md section 6, "Commutation": operations that share no state may be exchanged: the block ends in the same
state and each operation gives the same response. -/
def Obligations.OperationsThatShareNoStateCommute : Prop :=
  ∀ (i j : Instr) (s : State), shareNoState i j = true →
    ∃ ti tij tj tji : State,
      exec i s = .next ti ∧ exec j ti = .next tij ∧ exec j s = .next tj ∧ exec i tj = .next tji ∧
      tij.blockOf = tji.blockOf ∧ tij.pending = tji.pending ∧
      (isCommand i = true → tji.rsp = ti.rsp) ∧ (isCommand j = true → tij.rsp = tj.rsp)

/-! ### SCAN -/

/-- R126: a lane whose table result is idle or ambiguous counts one more idle scan, up to the ceiling, and its latch and
accumulators are unchanged. -/
def Obligations.IdleOrAmbiguousResultCountsAnIdleScan : Prop :=
  ∀ (a b : Mask) (s : State), ∃ t, exec (.scan a b) s = .next t ∧
    ∀ i : LaneId,
      (classOf (tableRead s.cfg (laneKey (s.lane i) (a.getLsbD i.val) (b.getLsbD i.val))) = .idle ∨
        classOf (tableRead s.cfg (laneKey (s.lane i) (a.getLsbD i.val) (b.getLsbD i.val))) = .ambiguous) →
      (t.lane i).idle = min ((s.lane i).idle + 1) s.cfg.C ∧
      ((s.lane i).idle = s.cfg.C → (t.lane i).idle = s.cfg.C) ∧
      (s.cfg.C = 0 → (t.lane i).idle = 0) ∧
      (t.lane i).latch = (s.lane i).latch ∧ (t.lane i).acc = (s.lane i).acc ∧ (t.lane i).sum = (s.lane i).sum

/-- R128, R129, R130, R132: a lane whose table result is directional passes the hysteresis filter, or not; an accepted
event adds the result and the cycles, a rejected one adds nothing; either takes the latch and clears the idle counter. -/
def Obligations.DirectionalResultPassesTheHysteresisFilter : Prop :=
  ∀ (a b : Mask) (s : State), ∃ t, exec (.scan a b) s = .next t ∧
    ∀ (i : LaneId) (q : QEntry),
      tableRead s.cfg (laneKey (s.lane i) (a.getLsbD i.val) (b.getLsbD i.val)) = q →
      entryValue q = 1 ∨ entryValue q = -1 →
      (t.lane i).latch = (if entryValue q = 1 then .fwd else .bwd) ∧
      (t.lane i).idle = 0 ∧
      (s.cfg.T ≤ (s.lane i).idle + 1 ∨ (entryValue q = 1 ∧ (s.lane i).latch = .fwd) ∨
          (entryValue q = -1 ∧ (s.lane i).latch = .bwd) →
        (t.lane i).acc.toInt = Int.bmod ((s.lane i).acc.toInt + entryValue q) (2 ^ 8) ∧
        (t.lane i).sum.toNat = ((s.lane i).sum.toNat + ((s.lane i).idle + 1)) % 2 ^ 16) ∧
      (¬ (s.cfg.T ≤ (s.lane i).idle + 1 ∨ (entryValue q = 1 ∧ (s.lane i).latch = .fwd) ∨
          (entryValue q = -1 ∧ (s.lane i).latch = .bwd)) →
        (t.lane i).acc = (s.lane i).acc ∧ (t.lane i).sum = (s.lane i).sum)

/-- R131: whatever the result of a lane, its stored samples are this SCAN's, so the previous samples in the next SCAN's
key are this SCAN's current ones. -/
def Obligations.ScanStoresTheCurrentSamples : Prop :=
  ∀ (a b : Mask) (s : State), ∃ t, exec (.scan a b) s = .next t ∧
    ∀ i : LaneId, (t.lane i).pa = a.getLsbD i.val ∧ (t.lane i).pb = b.getLsbD i.val ∧
      ∀ ca cb : Bool, (laneKey (t.lane i) ca cb).toNat =
        8 * (a.getLsbD i.val).toNat + 4 * (b.getLsbD i.val).toNat + 2 * ca.toNat + cb.toNat

/-- R133, at the ends of the range: an accepted step past +127 leaves -128, past -128 leaves 127, and within the range the
step is exact. R134, likewise: the sum wraps at most once. -/
def Obligations.AccumulatorsWrapAtTheEnds : Prop :=
  ∀ (a b : Mask) (s t : State) (i : LaneId) (d : Dir), Inv s → exec (.scan a b) s = .next t →
    acceptedEvent i (.scan a b) s = some d →
    (d = .forward → (s.lane i).acc.toInt = 127 → (t.lane i).acc.toInt = -128) ∧
    (d = .backward → (s.lane i).acc.toInt = -128 → (t.lane i).acc.toInt = 127) ∧
    (-128 ≤ (s.lane i).acc.toInt + dirValue d → (s.lane i).acc.toInt + dirValue d ≤ 127 →
      (t.lane i).acc.toInt = (s.lane i).acc.toInt + dirValue d) ∧
    1 ≤ cycles (s.lane i) ∧ cycles (s.lane i) ≤ s.cfg.C + 1 ∧
    (t.lane i).sum.toNat =
      (if (s.lane i).sum.toNat + cycles (s.lane i) ≤ 65535 then (s.lane i).sum.toNat + cycles (s.lane i)
       else (s.lane i).sum.toNat + cycles (s.lane i) - 65536)

/-- Lanes are independent (10_state.md section 2): what a SCAN does to a lane depends on that lane's elements and its own
two bits alone; what a take does and answers depends on its lane alone, and it changes no other lane. -/
def Obligations.LanesAreIndependent : Prop :=
  (∀ (a b a' b' : Mask) (s s' t t' : State) (i : LaneId),
    s.cfg = s'.cfg → s.lane i = s'.lane i → a.getLsbD i.val = a'.getLsbD i.val → b.getLsbD i.val = b'.getLsbD i.val →
    exec (.scan a b) s = .next t → exec (.scan a' b') s' = .next t' → t.lane i = t'.lane i) ∧
  (∀ (o : Instr) (s s' t t' : State) (i : LaneId),
    o = .takeSteps i ∨ o = .takeSum i ∨ o = .takeBoth i → s.lane i = s'.lane i →
    exec o s = .next t → exec o s' = .next t' →
    t.lane i = t'.lane i ∧ t.rsp = t'.rsp ∧ ∀ j, j ≠ i → t.lane j = s.lane j)

/-- R23: the latch of a lane has three values, NONE from reset; it is written by a SCAN with a directional result for the
lane, accepted or rejected, and by no other operation; no operation writes NONE; and which result matches which latch. -/
def Obligations.LatchIsWrittenByEventsAlone : Prop :=
  (∀ (c : Config) (id : LaneId), ((State.resetWith c).lane id).latch = .none) ∧
  (∀ x : Latch, x = .none ∨ x = .fwd ∨ x = .bwd) ∧
  (latchCode .none = 0b00#2 ∧ latchCode .fwd = 0b01#2 ∧ latchCode .bwd = 0b11#2) ∧
  (∀ (d : Dir) (x : Latch),
    latchMatches d x = true ↔ (d = .forward ∧ x = .fwd) ∨ (d = .backward ∧ x = .bwd)) ∧
  ∀ (i : Instr) (s t : State) (id : LaneId), exec i s = .next t →
    (eventOf id i s = some .forward → (t.lane id).latch = .fwd) ∧
    (eventOf id i s = some .backward → (t.lane id).latch = .bwd) ∧
    (eventOf id i s = none → (t.lane id).latch = (s.lane id).latch) ∧
    ((t.lane id).latch = .none → (s.lane id).latch = .none)

/-- The idle counter (10_state.md section 2; 70_reset_and_hazards.md section 1): only SCAN writes it; an event clears it,
any other SCAN counts; so, within the invariants, no operation clears a running counter without an event. -/
def Obligations.IdleCounterIsClearedByEventsAlone : Prop :=
  ∀ (i : Instr) (s t : State) (id : LaneId), exec i s = .next t →
    (eventOf id i s ≠ none → (t.lane id).idle = 0) ∧
    (isCommand i = true → (t.lane id).idle = (s.lane id).idle) ∧
    (Inv s → (s.lane id).idle ≠ 0 → (t.lane id).idle = 0 → eventOf id i s ≠ none)

/-- The corner case "same scan word twice" (41_quadrature_scan.md section 4): where the table's four unchanged keys are
idle, a second SCAN of the same word counts one idle scan in every lane and changes nothing else. -/
def Obligations.SameScanWordTwiceIsIdle : Prop :=
  ∀ (a b : Mask) (s t : State), exec (.scan a b) s = .next t →
    (∀ k : Fin 16, k.val ∈ [0, 5, 10, 15] → classOf (s.cfg.qtable.get k) = .idle) →
    ∃ u, exec (.scan a b) t = .next u ∧
      (∀ i : LaneId, u.lane i = { t.lane i with idle := min ((t.lane i).idle + 1) s.cfg.C }) ∧
      SameDebounce t u ∧ SameSurround t u ∧ u.rsp = t.rsp

/-- 00_scope.md section 4, the parameter corner cases: with `T <= 1` every event is accepted; with `T > C + 1` an event is
accepted exactly when it has the latched direction, so a change of direction is accepted on the second consecutive result
of the new direction only. -/
def Obligations.DegenerateTimeouts : Prop :=
  ∀ (i : Instr) (s : State) (id : LaneId) (d : Dir), eventOf id i s = some d →
    (s.cfg.T ≤ 1 → acceptedEvent id i s = some d) ∧
    (Inv s → s.cfg.C + 1 < s.cfg.T →
      (acceptedEvent id i s = some d ↔ (s.lane id).latch = latchOf d) ∧
      ∀ (j : Instr) (t : State), exec i s = .next t → eventOf id j t = some d → acceptedEvent id j t = some d)

/-- The hysteresis property of 41_quadrature_scan.md section 4 (a): an event whose direction is not the latched one,
arriving with `cycles < T`, is rejected; and the lane's next event, if it has the same new direction, is accepted
whatever came between, be it any number of operations without an event of the lane. -/
def Obligations.RejectedReversalPrimesTheNextStep : Prop :=
  ∀ (id : LaneId) (d : Dir) (i : Instr) (between : List Instr) (j : Instr) (s t u v : State),
    eventOf id i s = some d → (s.lane id).latch ≠ latchOf d → cycles (s.lane id) < s.cfg.T →
    exec i s = .next t →
    everyOp (fun o x => eventOf id o x = none) between t → runTrace between t = .next u →
    eventOf id j u = some d → exec j u = .next v →
    ((t.lane id).acc = (s.lane id).acc ∧ (t.lane id).sum = (s.lane id).sum ∧ (t.lane id).latch = latchOf d) ∧
    ((v.lane id).acc = BitVec.ofInt 8 ((u.lane id).acc.toInt + dirValue d) ∧
      (v.lane id).sum = BitVec.ofNat 16 ((u.lane id).sum.toNat + ((u.lane id).idle + 1)))

/-- A glitch pair costs nothing (41_quadrature_scan.md section 4 (b)): with `T >= 2`, an event against the latched
direction with `cycles < T`, followed at once by one in the latched direction, leaves both accumulators and the latch as
they were. -/
def Obligations.GlitchPairLeavesTheAccumulators : Prop :=
  ∀ (id : LaneId) (d e : Dir) (i j : Instr) (s t u : State),
    2 ≤ s.cfg.T → d ≠ e → (s.lane id).latch = latchOf e → cycles (s.lane id) < s.cfg.T →
    eventOf id i s = some d → exec i s = .next t → eventOf id j t = some e → exec j t = .next u →
    (u.lane id).acc = (s.lane id).acc ∧ (u.lane id).sum = (s.lane id).sum ∧ (u.lane id).latch = (s.lane id).latch

/-- A genuine reversal (41_quadrature_scan.md section 4 (c)). An event against the latched direction is lost exactly when
the idle counter has `IDLE + 1 < T`. So, where `n` SCANs without an event of the lane (and any other operations) lie
between an event and the next one, of the other direction: with `IDLE_CEILING >= T - 1` the second is lost exactly when
`n < T - 1`; with a lower ceiling it is always lost. A lost event leaves both accumulators, any other adds to both, and
either turns the latch. -/
def Obligations.ReversalIsLostOnlyWithoutQuiescence : Prop :=
  (∀ (id : LaneId) (d : Dir) (i : Instr) (s : State),
    eventOf id i s = some d → (s.lane id).latch ≠ latchOf d →
    (acceptedEvent id i s = none ↔ (s.lane id).idle + 1 < s.cfg.T)) ∧
  (∀ (id : LaneId) (d e : Dir) (i j : Instr) (between : List Instr) (s t u : State), d ≠ e →
    eventOf id i s = some e → exec i s = .next t →
    everyOp (fun o x => eventOf id o x = none) between t → runTrace between t = .next u → eventOf id j u = some d →
    (s.cfg.T ≤ s.cfg.C + 1 → (acceptedEvent id j u = none ↔ scansIn between + 1 < s.cfg.T)) ∧
    (s.cfg.C + 1 < s.cfg.T → acceptedEvent id j u = none) ∧
    ∃ v, exec j u = .next v ∧ (v.lane id).latch = latchOf d ∧
      (acceptedEvent id j u = none → (v.lane id).acc = (u.lane id).acc ∧ (v.lane id).sum = (u.lane id).sum) ∧
      (acceptedEvent id j u ≠ none →
        (v.lane id).acc.toInt = Int.bmod ((u.lane id).acc.toInt + dirValue d) (2 ^ 8) ∧
        (v.lane id).sum.toNat = ((u.lane id).sum.toNat + (min (scansIn between) s.cfg.C + 1)) % 2 ^ 16))

/-- Chatter between two adjacent states is fully suppressed (41_quadrature_scan.md section 4, corner case 5): with
`T >= 2`, a lane that steps one way and back at every SCAN, for any number of times, never moves its accumulators and its
idle counter stays 0. -/
def Obligations.ChatterNeverMovesTheAccumulators : Prop :=
  ∀ (id : LaneId) (d e : Dir) (a b a' b' : Mask) (s : State) (n : Nat),
    2 ≤ s.cfg.T → d ≠ e → (s.lane id).idle = 0 → (s.lane id).latch ≠ latchOf d →
    (s.lane id).pa = a'.getLsbD id.val → (s.lane id).pb = b'.getLsbD id.val →
    classOf (tableRead s.cfg (laneKey (s.lane id) (a.getLsbD id.val) (b.getLsbD id.val))) = .directional d →
    classOf (tableRead s.cfg
      (laneKey { s.lane id with pa := a.getLsbD id.val, pb := b.getLsbD id.val } (a'.getLsbD id.val)
        (b'.getLsbD id.val))) = .directional e →
    ∃ t, runTrace (List.replicate n [Instr.scan a b, Instr.scan a' b']).flatten s = .next t ∧
      (t.lane id).acc = (s.lane id).acc ∧ (t.lane id).sum = (s.lane id).sum ∧ (t.lane id).idle = 0

/-- The first SCAN after reset (70_reset_and_hazards.md section 2), with the default table, for each of the four states an
encoder may be in. (Where the spec writes `IDLE = 1` it takes `IDLE_CEILING >= 1`; with a ceiling of 0 the counter stays
0, 41_quadrature_scan.md section 2.) -/
def Obligations.FirstScanAfterResetComparesWithZero : Prop :=
  ∀ (c : Config) (a b : Mask), c.qtable = defaultQTable →
    ∃ t, exec (.scan a b) (State.resetWith c) = .next t ∧
      ∀ i : LaneId,
        t.lane i =
          match a.getLsbD i.val, b.getLsbD i.val with
          | false, false =>
            { pa := false, pb := false, idle := min 1 c.C, latch := .none, acc := 0#8, sum := 0#16 }
          | true, false =>
            if 2 ≤ c.T then { pa := true, pb := false, idle := 0, latch := .fwd, acc := 0#8, sum := 0#16 }
            else { pa := true, pb := false, idle := 0, latch := .fwd, acc := 1#8, sum := 1#16 }
          | false, true =>
            if 2 ≤ c.T then { pa := false, pb := true, idle := 0, latch := .bwd, acc := 0#8, sum := 0#16 }
            else { pa := false, pb := true, idle := 0, latch := .bwd, acc := 0xFF#8, sum := 1#16 }
          | true, true =>
            { pa := true, pb := true, idle := min 1 c.C, latch := .none, acc := 0#8, sum := 0#16 }

/-! ### Taking the accumulators -/

/-- R150: TAKE_STEPS returns the step count from before and clears it, and changes nothing else; taken again, with no
SCAN between, it returns 0. What it returns is the accepted steps since the count was last 0, forward less backward,
modulo 2^8. -/
def Obligations.TakeStepsReturnsAndClears : Prop :=
  (∀ (id : LaneId) (ops : List Instr) (s t u : State) (r : Response), (s.lane id).acc = 0#8 →
    (∀ o ∈ ops, takesAcc o ≠ some id) → runTrace ops s = .next t → exec (.takeSteps id) t = .next u → u.rsp = some r →
    stepsOfTakeSteps r = Int.bmod (totalAlong (fun i x _ => acceptedSteps id i x) ops s) (2 ^ 8) ∧
    (scansIn ops = 0 → r = 0x000000#24)) ∧
  ∀ (id : LaneId) (s : State), ∃ (t : State) (r : Response), exec (.takeSteps id) s = .next t ∧
    t.rsp = some r ∧ r = (s.lane id).acc.signExtend 24 ∧ stepsOfTakeSteps r = (s.lane id).acc.toInt ∧
    t.lane id = { s.lane id with acc := 0#8 } ∧ (∀ j, j ≠ id → t.lane j = s.lane j) ∧
    SameDebounce s t ∧ SameSurround s t ∧
    ∃ u, exec (.takeSteps id) t = .next u ∧ u.rsp = some 0x000000#24 ∧ u.blockOf = t.blockOf

/-- R151: TAKE_SUM returns the cycle sum from before and clears it, and changes nothing else; the idle counter keeps
running. What it returns is the cycles of the events accepted since the sum was last 0, modulo 2^16. -/
def Obligations.TakeSumReturnsAndClears : Prop :=
  (∀ (id : LaneId) (ops : List Instr) (s t u : State) (r : Response), (s.lane id).sum = 0#16 →
    (∀ o ∈ ops, takesSum o ≠ some id) → runTrace ops s = .next t → exec (.takeSum id) t = .next u → u.rsp = some r →
    (sumOfResponse r : Int) = totalAlong (fun i x _ => acceptedCycles id i x) ops s % 2 ^ 16) ∧
  ∀ (id : LaneId) (s : State), ∃ (t : State) (r : Response), exec (.takeSum id) s = .next t ∧
    t.rsp = some r ∧ r = (s.lane id).sum.setWidth 24 ∧ sumOfResponse r = (s.lane id).sum.toNat ∧
    t.lane id = { s.lane id with sum := 0#16 } ∧ (t.lane id).idle = (s.lane id).idle ∧
    (∀ j, j ≠ id → t.lane j = s.lane j) ∧ SameDebounce s t ∧ SameSurround s t

/-- R152: TAKE_BOTH returns the pair from before and clears both. TAKE_STEPS and TAKE_SUM of the lane, in either order,
with no SCAN and no other take of the lane between them, return the same two values, and leave the state that TAKE_BOTH
followed by what came between leaves. -/
def Obligations.TakeBothIsTheTwoTakes : Prop :=
  ∀ (id : LaneId) (s : State), ∃ (t : State) (r : Response), exec (.takeBoth id) s = .next t ∧
    t.rsp = some r ∧ r = (s.lane id).acc ++ (s.lane id).sum ∧
    t.lane id = { s.lane id with acc := 0#8, sum := 0#16 } ∧ (∀ j, j ≠ id → t.lane j = s.lane j) ∧
    SameDebounce s t ∧ SameSurround s t ∧
    ∀ between : List Instr, scansIn between = 0 → (∀ o ∈ between, takesAcc o ≠ some id ∧ takesSum o ≠ some id) →
      ∃ (x t1 m1 t2 u1 n1 u2 : State) (r1 r2 q1 q2 : Response),
        runTrace between t = .next x ∧
        exec (.takeSteps id) s = .next t1 ∧ runTrace between t1 = .next m1 ∧ exec (.takeSum id) m1 = .next t2 ∧
        exec (.takeSum id) s = .next u1 ∧ runTrace between u1 = .next n1 ∧ exec (.takeSteps id) n1 = .next u2 ∧
        t1.rsp = some r1 ∧ t2.rsp = some r2 ∧ u1.rsp = some q1 ∧ u2.rsp = some q2 ∧
        stepsOfTakeSteps r1 = stepsOfTakeBoth r ∧ sumOfResponse r2 = sumOfResponse r ∧
        sumOfResponse q1 = sumOfResponse r ∧ stepsOfTakeSteps q2 = stepsOfTakeBoth r ∧
        t2.blockOf = x.blockOf ∧ u2.blockOf = x.blockOf

/-- Conservation (42_take_accumulators.md section 3): along every trace in which a lane's step accumulator does not wrap,
the steps delivered to the CONSUMER plus the lane's final `ACC` are its first `ACC` plus the accepted FORWARD events less
the accepted BACKWARD ones. No accepted step is lost or counted twice. -/
def Obligations.StepsAreConserved : Prop :=
  ∀ (id : LaneId) (ops : List Instr) (s t : State), NoAccWrap id ops s → runTrace ops s = .next t →
    totalAlong (fun i _ u => stepsDelivered id i u.rsp) ops s + (t.lane id).acc.toInt =
      (s.lane id).acc.toInt + totalAlong (fun i x _ => acceptedSteps id i x) ops s

/-- Conservation of the cycle sum (42_take_accumulators.md section 3). -/
def Obligations.CyclesAreConserved : Prop :=
  ∀ (id : LaneId) (ops : List Instr) (s t : State), NoSumWrap id ops s → runTrace ops s = .next t →
    totalAlong (fun i _ u => sumDelivered id i u.rsp) ops s + ((t.lane id).sum.toNat : Int) =
      ((s.lane id).sum.toNat : Int) + totalAlong (fun i x _ => acceptedCycles id i x) ops s

/-- Hazard 3, the steps (70_reset_and_hazards.md section 3): fewer than 128 SCANs after a take of the lane's steps,
whatever other operations come between, the step accumulator has not wrapped. -/
def Obligations.FewerThan128ScansCannotWrapSteps : Prop :=
  ∀ (id : LaneId) (ops : List Instr) (s : State), (s.lane id).acc = 0#8 → scansIn ops < 128 → NoAccWrap id ops s

/-- Hazard 3, the sum (70_reset_and_hazards.md section 3): within `65535 - IDLE_CEILING` SCANs after a take of the lane's
sum, whatever other operations come between, the cycle sum has not wrapped. -/
def Obligations.SumCannotWrapWithinItsBound : Prop :=
  ∀ (id : LaneId) (ops : List Instr) (s : State), Inv s → (s.lane id).sum = 0#16 →
    scansIn ops ≤ 65535 - s.cfg.C → NoSumWrap id ops s

/-- Hazard 1, the torn pair (20_memory.md section 6, "Multi-field reads"): where a SCAN with an accepted step falls between
TAKE_STEPS and TAKE_SUM of a lane, the sum returned includes the cycles of a step that the steps returned do not, and the
next TAKE_STEPS reports that step with its cycles already gone. -/
def Obligations.TornPairMissesTheStep : Prop :=
  ∀ (id : LaneId) (d : Dir) (a b : Mask) (s s1 s2 s3 s4 s5 : State),
    exec (.takeSteps id) s = .next s1 → acceptedEvent id (.scan a b) s1 = some d → exec (.scan a b) s1 = .next s2 →
    exec (.takeSum id) s2 = .next s3 → exec (.takeSteps id) s3 = .next s4 → exec (.takeSum id) s4 = .next s5 →
    ∃ r1 r3 r4 r5 : Response, s1.rsp = some r1 ∧ s3.rsp = some r3 ∧ s4.rsp = some r4 ∧ s5.rsp = some r5 ∧
      stepsOfTakeSteps r1 = (s.lane id).acc.toInt ∧
      sumOfResponse r3 = ((s.lane id).sum.toNat + cycles (s.lane id)) % 2 ^ 16 ∧
      stepsOfTakeSteps r4 = dirValue d ∧ sumOfResponse r5 = 0

/-! ### The switch debouncer -/

/-- R101, R103, R104: SWUPD replaces the slot at `WIDX`, which holds the oldest sample, advances the index, assigns both edge masks against the stable
state from before, and remembers the new one; it touches nothing of the quadrature half and gives no response. -/
def Obligations.SwupdPushesAndFlagsEdges : Prop :=
  ∀ (sw : Mask) (s : State), ∃ t, exec (.swupd sw) s = .next t ∧
    (s.widx < s.buf.length →
      t.bufRead s.widx = sw ∧ (∀ k, k ≠ s.widx → t.bufRead k = s.bufRead k)) ∧
    t.buf.length = s.buf.length ∧
    t.widx = (s.widx + 1) % s.cfg.debounceDepth ∧
    (s.cfg.debounceDepth = 1 → t.widx = 0) ∧
    t.stable = orAll t.buf ∧
    t.up = (s.stable ^^^ t.stable) &&& s.stable ∧ t.down = (s.stable ^^^ t.stable) &&& t.stable ∧
    t.up = s.stable &&& ~~~t.stable ∧ t.down = t.stable &&& ~~~s.stable ∧
    (t.stable = s.stable → t.up = 0x0000#16 ∧ t.down = 0x0000#16) ∧
    (∀ (c : Config) (ops : List Instr), c.wf = true → runTrace ops (State.resetWith c) = .next s →
      s.bufRead s.widx = (samplesOf ops).reverse.getD (c.debounceDepth - 1) 0x0000#16) ∧
    SameQuadrature s t ∧ SameSurround s t ∧ t.rsp = s.rsp

/-- R102: the stable state is the OR of all slots; so, along every trace from reset, with any other operations between
the SWUPDs, bit `j` of it is 1 exactly when it was 1 in one of the `DEBOUNCE_DEPTH` most recent samples. -/
def Obligations.StableIsTheOrOfTheRecentSamples : Prop :=
  ∀ (c : Config) (ops : List Instr) (t : State), c.wf = true → runTrace ops (State.resetWith c) = .next t →
    (∀ j, t.stable.getLsbD j = true ↔ ∃ k, k < c.debounceDepth ∧ (t.bufRead k).getLsbD j = true) ∧
    (∀ j, t.stable.getLsbD j = true ↔
      ∃ x, x ∈ (samplesOf ops).reverse.take c.debounceDepth ∧ x.getLsbD j = true)

/-- The debounce buffer (10_state.md section 3): after `m` SWUPDs since reset it holds exactly the `DEBOUNCE_DEPTH` most recent samples, or the `m`
samples and zero words. -/
def Obligations.BufferHoldsTheRecentSamples : Prop :=
  ∀ (c : Config) (ops : List Instr) (t : State), c.wf = true → runTrace ops (State.resetWith c) = .next t →
    t.buf.Perm ((samplesOf ops).reverse.take c.debounceDepth ++
      List.replicate (c.debounceDepth - (samplesOf ops).length) 0x0000#16)

/-- Press is immediate (40_switch_debounce.md section 2, consequence (a)): a set sample of an open switch sets its bit of
`STABLE` and of `DOWN` at once. -/
def Obligations.PressIsImmediate : Prop :=
  ∀ (sw : Mask) (s : State) (j : LaneId), Inv s → s.stable.getLsbD j.val = false → sw.getLsbD j.val = true →
    ∃ t, exec (.swupd sw) s = .next t ∧ t.stable.getLsbD j.val = true ∧ t.down.getLsbD j.val = true ∧
      t.up.getLsbD j.val = false

/-- Release is delayed (40_switch_debounce.md section 2, consequences (b), (c), (d), (f)): after a set sample, `n` clear
samples of a switch leave its stable bit set exactly while `n < DEBOUNCE_DEPTH`, and its `UP` bit is 1 after exactly the
`DEBOUNCE_DEPTH`-th of them. -/
def Obligations.ReleaseTakesExactlyTheDepth : Prop :=
  ∀ (sw : Mask) (clear : List Mask) (s t : State) (j : LaneId), Inv s → sw.getLsbD j.val = true →
    (∀ x ∈ clear, x.getLsbD j.val = false) → clear ≠ [] → runTrace (swupds (sw :: clear)) s = .next t →
    (t.stable.getLsbD j.val = true ↔ clear.length < s.cfg.debounceDepth) ∧
    (t.up.getLsbD j.val = true ↔ clear.length = s.cfg.debounceDepth) ∧
    t.down.getLsbD j.val = false

/-- Hazard 2, edge lifetime (70_reset_and_hazards.md section 3; 40_switch_debounce.md section 2, consequence (f)): an edge
mask describes one SWUPD only; no edge bit survives the next SWUPD, whatever its sample. -/
def Obligations.EdgesLastOneUpdate : Prop :=
  ∀ (sw sw' : Mask) (s t u : State), exec (.swupd sw) s = .next t → exec (.swupd sw') t = .next u →
    t.down &&& u.down = 0x0000#16 ∧ t.up &&& u.up = 0x0000#16

/-- The status masks stay what the last SWUPD made them until the next one (10_state.md section 3): whatever other
operations come between, a read delivers the masks of that SWUPD. -/
def Obligations.StatusMasksStayUntilTheNextUpdate : Prop :=
  ∀ (sw : Mask) (between : List Instr) (x : BitVec 4) (s t u : State), exec (.swupd sw) s = .next t →
    samplesOf between = [] → runTrace between t = .next u →
    ∃ v1 v2 v3, exec (.rdStable x) u = .next v1 ∧ v1.rsp = some (t.stable.setWidth 24) ∧
      exec (.rdUp x) u = .next v2 ∧ v2.rsp = some (t.up.setWidth 24) ∧
      exec (.rdDown x) u = .next v3 ∧ v3.rsp = some (t.down.setWidth 24)

/-- Under the default schedule no edge is lost (70_reset_and_hazards.md section 3, hazard 2; 40_switch_debounce.md
section 2, "When SWUPD runs"): where the CONSUMER reads both masks after every SWUPD and before the next, every edge a
SWUPD flags is delivered by a read before the next SWUPD. -/
def Obligations.NoEdgeIsLostUnderConsumerTick : Prop :=
  ∀ (sw : Mask) (before after : List Instr) (s t u : State) (j : Nat),
    s.cfg.swStrobeSource = .consumerTick →
    keepsSchedule s.cfg.swStrobeSource (before ++ .swupd sw :: after) = true →
    runTrace before s = .next t → exec (.swupd sw) t = .next u →
    (u.down.getLsbD j = true →
      ∃ (mid rest : List Instr) (x : BitVec 4) (v w : State) (r : Response), after = mid ++ .rdDown x :: rest ∧
        samplesOf mid = [] ∧ runTrace mid u = .next v ∧ exec (.rdDown x) v = .next w ∧ w.rsp = some r ∧
        r.getLsbD j = true) ∧
    (u.up.getLsbD j = true →
      ∃ (mid rest : List Instr) (x : BitVec 4) (v w : State) (r : Response), after = mid ++ .rdUp x :: rest ∧
        samplesOf mid = [] ∧ runTrace mid u = .next v ∧ exec (.rdUp x) v = .next w ∧ w.rsp = some r ∧
        r.getLsbD j = true)

/-- R106, R107, R108: the three reads answer the mask, zero-extended, whatever the `id` field, and change nothing else;
repeated, with any operations but a SWUPD between, they answer the same; before the first SWUPD after reset they answer
0. -/
def Obligations.StatusReadsArePure : Prop :=
  (∀ (x : BitVec 4) (s : State),
    exec (.rdStable x) s = .next { s with rsp := some (s.stable.setWidth 24) } ∧
    exec (.rdUp x) s = .next { s with rsp := some (s.up.setWidth 24) } ∧
    exec (.rdDown x) s = .next { s with rsp := some (s.down.setWidth 24) }) ∧
  (∀ (ops : List Instr) (s u : State), samplesOf ops = [] → runTrace ops s = .next u →
    u.stable = s.stable ∧ u.up = s.up ∧ u.down = s.down) ∧
  (∀ (x : BitVec 4) (c : Config) (ops : List Instr) (s : State), samplesOf ops = [] →
    runTrace ops (State.resetWith c) = .next s →
    exec (.rdStable x) s = .next { s with rsp := some 0x000000#24 } ∧
    exec (.rdUp x) s = .next { s with rsp := some 0x000000#24 } ∧
    exec (.rdDown x) s = .next { s with rsp := some 0x000000#24 })

/-- 30_encoding.md section 8: the command words with operation code 0x0 or 0x7 to 0xF change no state element and answer
0x000000. There are 160 of them, not the 144 that section writes in a parenthesis: ten codes of sixteen words each
(notes/assumptions/9.md). -/
def Obligations.ReservedWordsDoNothing : Prop :=
  (∀ (x op : BitVec 4) (s : State),
    exec (.reservedOp0 x) s = .next { s with rsp := some 0x000000#24 } ∧
    exec (.reservedOp7 x) s = .next { s with rsp := some 0x000000#24 } ∧
    exec (.reservedOp8F op x) s = .next { s with rsp := some 0x000000#24 }) ∧
  (∀ (w : BitVec 8) (s : State), w.toNat < 0x10 ∨ 0x70 ≤ w.toNat →
    exec (decode (.command w)) s = .next { s with rsp := some 0x000000#24 }) ∧
  ((List.range 256).countP fun n => decide (n < 0x10 ∨ 0x70 ≤ n)) = 160

/-- Which constructor each read and reserved word decodes to, with every bit of it kept. That a read keeps its ignored `id`
field, and a reserved word both its fields, is the MODEL'S CHOICE (notes/assumptions/12.md), and so are the three reserved
constructors, one for each row of the opcode table, where the spec speaks of one (notes/assumptions/11.md). -/
def Obligations.IgnoredFieldsAreKept : Prop :=
  (∀ x : Fin 16,
    decode (.command (BitVec.ofNat 8 (0x40 + x.val))) = .rdStable (BitVec.ofNat 4 x.val) ∧
    decode (.command (BitVec.ofNat 8 (0x50 + x.val))) = .rdUp (BitVec.ofNat 4 x.val) ∧
    decode (.command (BitVec.ofNat 8 (0x60 + x.val))) = .rdDown (BitVec.ofNat 4 x.val) ∧
    decode (.command (BitVec.ofNat 8 x.val)) = .reservedOp0 (BitVec.ofNat 4 x.val) ∧
    decode (.command (BitVec.ofNat 8 (0x70 + x.val))) = .reservedOp7 (BitVec.ofNat 4 x.val)) ∧
  (∀ op x : Fin 16, 8 ≤ op.val →
    decode (.command (BitVec.ofNat 8 (16 * op.val + x.val))) =
      .reservedOp8F (BitVec.ofNat 4 op.val) (BitVec.ofNat 4 x.val))

/-- The two halves share no state (10_state.md section 7; 41_quadrature_scan.md section 4, corner case 8): SCAN leaves the
debounce half, the parameters, what is pending and the response port (notes/assumptions/4.md) as they were; what an
operation of the quadrature half does to the lanes and answers does not depend on the debounce half; and what an operation
of the debounce half does to it and answers does not depend on the lanes. -/
def Obligations.HalvesShareNoState : Prop :=
  (∀ (a b : Mask) (s : State), ∃ t, exec (.scan a b) s = .next t ∧
    SameDebounce s t ∧ SameSurround s t ∧ t.rsp = s.rsp) ∧
  (∀ (o : Instr) (s s' t t' : State), usesQuadrature o = true → s.cfg = s'.cfg → SameQuadrature s s' →
    exec o s = .next t → exec o s' = .next t' →
    SameQuadrature t t' ∧ SameDebounce s t ∧ (isCommand o = true → t'.rsp = t.rsp)) ∧
  (∀ (o : Instr) (s s' t t' : State), usesDebounce o = true → s.cfg = s'.cfg → SameDebounce s s' →
    exec o s = .next t → exec o s' = .next t' →
    SameDebounce t t' ∧ SameQuadrature s t ∧ (isCommand o = true → t'.rsp = t.rsp))
end

