-- ==== Sys2Proof/Laws/State.lean ====
section
/-!
SUPPORT. The small lemmas of the state's operations: one per field and update, and the lane reads after lane writes.
-/

namespace Sys2Proof.Machine.State

section setLane
variable (s : State) (i j : LaneId) (l : Lane)

@[simp] theorem setLane_cfg : (s.setLane i l).cfg = s.cfg := rfl
@[simp] theorem setLane_buf : (s.setLane i l).buf = s.buf := rfl
@[simp] theorem setLane_widx : (s.setLane i l).widx = s.widx := rfl
@[simp] theorem setLane_stable : (s.setLane i l).stable = s.stable := rfl
@[simp] theorem setLane_up : (s.setLane i l).up = s.up := rfl
@[simp] theorem setLane_down : (s.setLane i l).down = s.down := rfl
@[simp] theorem setLane_rsp : (s.setLane i l).rsp = s.rsp := rfl
@[simp] theorem setLane_pending : (s.setLane i l).pending = s.pending := rfl

/-- Reading a lane after writing a lane. -/
theorem lane_setLane : (s.setLane i l).lane j = if j = i then l else s.lane j := by
  by_cases h : j = i
  · subst h; simp [lane, setLane, Vector.get_eq_getElem]
  · have : i.val ≠ j.val := fun e => h (Fin.ext e.symm)
    simp [lane, setLane, Vector.get_eq_getElem, h, Vector.getElem_set_ne, this]

@[simp] theorem lane_setLane_self : (s.setLane i l).lane i = l := by simp [lane_setLane]

theorem lane_setLane_ne (h : j ≠ i) : (s.setLane i l).lane j = s.lane j := by simp [lane_setLane, h]

end setLane

section mapLanes
variable (s : State) (f : LaneId → Lane → Lane) (i : LaneId)

@[simp] theorem mapLanes_cfg : (s.mapLanes f).cfg = s.cfg := rfl
@[simp] theorem mapLanes_buf : (s.mapLanes f).buf = s.buf := rfl
@[simp] theorem mapLanes_widx : (s.mapLanes f).widx = s.widx := rfl
@[simp] theorem mapLanes_stable : (s.mapLanes f).stable = s.stable := rfl
@[simp] theorem mapLanes_up : (s.mapLanes f).up = s.up := rfl
@[simp] theorem mapLanes_down : (s.mapLanes f).down = s.down := rfl
@[simp] theorem mapLanes_rsp : (s.mapLanes f).rsp = s.rsp := rfl
@[simp] theorem mapLanes_pending : (s.mapLanes f).pending = s.pending := rfl

/-- Every lane comes from its own old elements. -/
@[simp] theorem lane_mapLanes : (s.mapLanes f).lane i = f i (s.lane i) := by
  simp [lane, mapLanes, Vector.get_eq_getElem]

end mapLanes

section bufWrite
variable (s : State) (k : Nat) (v : Mask) (i : LaneId)

@[simp] theorem bufWrite_cfg : (s.bufWrite k v).cfg = s.cfg := rfl
@[simp] theorem bufWrite_lanes : (s.bufWrite k v).lanes = s.lanes := rfl
@[simp] theorem bufWrite_lane : (s.bufWrite k v).lane i = s.lane i := rfl
@[simp] theorem bufWrite_buf : (s.bufWrite k v).buf = s.buf.set k v := rfl
@[simp] theorem bufWrite_widx : (s.bufWrite k v).widx = s.widx := rfl
@[simp] theorem bufWrite_stable : (s.bufWrite k v).stable = s.stable := rfl
@[simp] theorem bufWrite_up : (s.bufWrite k v).up = s.up := rfl
@[simp] theorem bufWrite_down : (s.bufWrite k v).down = s.down := rfl
@[simp] theorem bufWrite_rsp : (s.bufWrite k v).rsp = s.rsp := rfl
@[simp] theorem bufWrite_pending : (s.bufWrite k v).pending = s.pending := rfl

/-- The slot written reads as the value written, every other slot as before. -/
theorem bufRead_bufWrite (j : Nat) (h : k < s.buf.length) :
    (s.bufWrite k v).bufRead j = if j = k then v else s.bufRead j := by
  by_cases e : j = k
  · subst e; simp [bufRead, bufWrite, h]
  · simp [bufRead, bufWrite, e, List.getElem?_set_ne (Ne.symm e)]

end bufWrite

section respond
variable (s : State) (v : Response) (i : LaneId)

@[simp] theorem respond_cfg : (s.respond v).cfg = s.cfg := rfl
@[simp] theorem respond_lanes : (s.respond v).lanes = s.lanes := rfl
@[simp] theorem respond_lane : (s.respond v).lane i = s.lane i := rfl
@[simp] theorem respond_buf : (s.respond v).buf = s.buf := rfl
@[simp] theorem respond_widx : (s.respond v).widx = s.widx := rfl
@[simp] theorem respond_stable : (s.respond v).stable = s.stable := rfl
@[simp] theorem respond_up : (s.respond v).up = s.up := rfl
@[simp] theorem respond_down : (s.respond v).down = s.down := rfl
@[simp] theorem respond_rsp : (s.respond v).rsp = some v := rfl
@[simp] theorem respond_pending : (s.respond v).pending = s.pending := rfl

end respond

section reset
variable (s : State) (c : Config) (i : LaneId)

@[simp] theorem resetWith_cfg : (resetWith c).cfg = c := rfl
@[simp] theorem resetWith_buf : (resetWith c).buf = List.replicate c.debounceDepth 0#16 := rfl
@[simp] theorem resetWith_widx : (resetWith c).widx = 0 := rfl
@[simp] theorem resetWith_stable : (resetWith c).stable = 0#16 := rfl
@[simp] theorem resetWith_up : (resetWith c).up = 0#16 := rfl
@[simp] theorem resetWith_down : (resetWith c).down = 0#16 := rfl
@[simp] theorem resetWith_rsp : (resetWith c).rsp = none := rfl
@[simp] theorem resetWith_pending : (resetWith c).pending = [] := rfl

/-- Every lane is a reset lane. -/
@[simp] theorem resetWith_lane : (resetWith c).lane i = Lane.reset := by
  simp [lane, resetWith, Vector.get_eq_getElem]

@[simp] theorem resetPin_cfg : s.resetPin.cfg = s.cfg := rfl
@[simp] theorem resetPin_buf : s.resetPin.buf = List.replicate s.cfg.debounceDepth 0#16 := rfl
@[simp] theorem resetPin_widx : s.resetPin.widx = 0 := rfl
@[simp] theorem resetPin_stable : s.resetPin.stable = 0#16 := rfl
@[simp] theorem resetPin_up : s.resetPin.up = 0#16 := rfl
@[simp] theorem resetPin_down : s.resetPin.down = 0#16 := rfl
@[simp] theorem resetPin_rsp : s.resetPin.rsp = none := rfl
@[simp] theorem resetPin_pending : s.resetPin.pending = s.pending := rfl

@[simp] theorem resetPin_lane : s.resetPin.lane i = Lane.reset := resetWith_lane s.cfg i

end reset

section clock
variable (s : State) (i : LaneId)

@[simp] theorem beginClock_cfg : (beginClock s).cfg = s.cfg := rfl
@[simp] theorem beginClock_lanes : (beginClock s).lanes = s.lanes := rfl
@[simp] theorem beginClock_lane : (beginClock s).lane i = s.lane i := rfl
@[simp] theorem beginClock_buf : (beginClock s).buf = s.buf := rfl
@[simp] theorem beginClock_widx : (beginClock s).widx = s.widx := rfl
@[simp] theorem beginClock_stable : (beginClock s).stable = s.stable := rfl
@[simp] theorem beginClock_up : (beginClock s).up = s.up := rfl
@[simp] theorem beginClock_down : (beginClock s).down = s.down := rfl
@[simp] theorem beginClock_rsp : (beginClock s).rsp = none := rfl
@[simp] theorem beginClock_pending : (beginClock s).pending = s.pending.tail := rfl

@[simp] theorem blockOf_cfg : s.blockOf.cfg = s.cfg := rfl
@[simp] theorem blockOf_lanes : s.blockOf.lanes = s.lanes := rfl
@[simp] theorem blockOf_lane : s.blockOf.lane i = s.lane i := rfl
@[simp] theorem blockOf_buf : s.blockOf.buf = s.buf := rfl
@[simp] theorem blockOf_widx : s.blockOf.widx = s.widx := rfl
@[simp] theorem blockOf_stable : s.blockOf.stable = s.stable := rfl
@[simp] theorem blockOf_up : s.blockOf.up = s.up := rfl
@[simp] theorem blockOf_down : s.blockOf.down = s.down := rfl

end clock

/-- Two states are equal when their lanes and their other fields are. -/
theorem ext_lanes {s t : State} (hc : s.cfg = t.cfg) (hl : ∀ i, s.lane i = t.lane i) (hb : s.buf = t.buf)
    (hw : s.widx = t.widx) (hs : s.stable = t.stable) (hu : s.up = t.up) (hd : s.down = t.down)
    (hr : s.rsp = t.rsp) (hp : s.pending = t.pending) : s = t := by
  have hv : s.lanes = t.lanes := by
    apply Vector.ext
    intro i hi
    simpa [lane, Vector.get_eq_getElem] using hl ⟨i, hi⟩
  cases s; cases t
  simp_all

end Sys2Proof.Machine.State
end

