-- ==== Sys2Proof/Laws/Clock.lean ====
section
/-!
SUPPORT. How outcomes chain, what one clock does, and how traces unfold.
-/

namespace Sys2Proof.Machine

@[simp] theorem andThen_next (s : State) (f : State → Host.Outcome State Fault Refusal) :
    andThen (.next s) f = f s := rfl

/-- A chain answers a next state exactly when both of its parts do. -/
theorem andThen_eq_next {o : Host.Outcome State Fault Refusal} {f : State → Host.Outcome State Fault Refusal}
    {t : State} : andThen o f = .next t ↔ ∃ s, o = .next s ∧ f s = .next t := by
  cases o <;> simp [andThen]

@[simp] theorem strobe_none (s : State) : strobe none s = .next s := rfl
@[simp] theorem strobe_some (x : OpWord) (s : State) : strobe (some x) s = exec (decode x) s := rfl

/-- With `rst` high, a clock is the reset pin's effect alone (R190). -/
theorem clock_of_rst {p : Pins} (h : p.rst = true) (s : State) : clock p s = .next s.resetPin := by simp [clock, h]

/-- With `rst` low, a clock is what its strobes call for (R174). -/
theorem clock_of_not_rst {p : Pins} (h : p.rst = false) (s : State) : clock p s = strobes p s := by simp [clock, h]

theorem nextPins_cons {s : State} {p : Pins} {rest : List Pins} (h : s.pending = p :: rest) : nextPins s = p := by
  simp [nextPins, h]

theorem nextPins_nil {s : State} (h : s.pending = []) : nextPins s = Pins.quiet := by simp [nextPins, h]

/-- A run of any machine, unfolded once. -/
theorem run_succ_eq_next (M : Host.Core) (k : Nat) (s t : M.State) :
    M.run (k + 1) s = .next t ↔ ∃ u, M.step s = .next u ∧ M.run k u = .next t := by
  rw [Host.Core.run]
  cases M.step s <;> simp

/-- A run of this machine, unfolded once. -/
theorem core_run_succ (k : Nat) (s t : State) :
    Host.Core.run Sys2Proof.core (k + 1) s = .next t ↔
      ∃ u : State, step s = .next u ∧ Host.Core.run Sys2Proof.core k u = .next t :=
  run_succ_eq_next Sys2Proof.core k s t

/-- A run of no step. -/
theorem core_run_zero (s t : State) : Host.Core.run Sys2Proof.core 0 s = .next t ↔ s = t :=
  ⟨fun h => by injection h, fun h => by subst h; rfl⟩

@[simp] theorem runTrace_nil (s : State) : runTrace [] s = .next s := rfl

@[simp] theorem runTrace_cons (i : Instr) (is : List Instr) (s : State) :
    runTrace (i :: is) s = andThen (exec i s) (runTrace is) := rfl

/-- A trace in two parts. -/
theorem runTrace_append (xs ys : List Instr) (s : State) :
    runTrace (xs ++ ys) s = andThen (runTrace xs s) (runTrace ys) := by
  induction xs generalizing s with
  | nil => rfl
  | cons i is ih =>
    simp only [List.cons_append, runTrace_cons]
    cases exec i s <;> simp [andThen, ih]

end Sys2Proof.Machine
end

