-- ==== Sys2Proof/Laws/Exec.lean ====
section
/-!
SUPPORT. What executing each operation answers, as one equation per constructor, and the inversion of a next state; later
proofs cite these and unfold neither `exec` nor a meaning.
-/

namespace Sys2Proof.Machine

section exec
variable (s : State)

theorem exec_scan (a b : Mask) :
    exec (.scan a b) s = .next (s.mapLanes fun i l => laneStep s.cfg (laneBit a i) (laneBit b i) l) := rfl

theorem exec_swupd (sw : Mask) : exec (.swupd sw) s = .next (updateStable (pushSample sw s)) := rfl

theorem exec_takeSteps (id : LaneId) :
    exec (.takeSteps id) s = .next ((s.setLane id (clearAcc (s.lane id))).respond (stepsResponse (s.lane id).acc)) := rfl

theorem exec_takeSum (id : LaneId) :
    exec (.takeSum id) s = .next ((s.setLane id (clearSum (s.lane id))).respond (sumResponse (s.lane id).sum)) := rfl

theorem exec_takeBoth (id : LaneId) :
    exec (.takeBoth id) s = .next ((s.setLane id (clearSum (clearAcc (s.lane id)))).respond
      (bothResponse (s.lane id).acc (s.lane id).sum)) := rfl

theorem exec_rdStable (x : BitVec 4) : exec (.rdStable x) s = .next (s.respond (maskResponse s.stable)) := rfl

theorem exec_rdUp (x : BitVec 4) : exec (.rdUp x) s = .next (s.respond (maskResponse s.up)) := rfl

theorem exec_rdDown (x : BitVec 4) : exec (.rdDown x) s = .next (s.respond (maskResponse s.down)) := rfl

theorem exec_reservedOp0 (x : BitVec 4) : exec (.reservedOp0 x) s = .next (s.respond reservedResponse) := rfl

theorem exec_reservedOp7 (x : BitVec 4) : exec (.reservedOp7 x) s = .next (s.respond reservedResponse) := rfl

theorem exec_reservedOp8F (op x : BitVec 4) : exec (.reservedOp8F op x) s = .next (s.respond reservedResponse) := rfl

end exec

/-- Two next states that are the same outcome are the same state. -/
theorem next_inj {s t : State} (h : (Host.Outcome.next s : Host.Outcome State Fault Refusal) = .next t) : s = t := by
  injection h

/-- What an operation that answers a next state did, by constructor. -/
theorem exec_next_cases {i : Instr} {s t : State} (h : exec i s = .next t) :
    (∃ a b, i = .scan a b ∧ t = s.mapLanes fun k l => laneStep s.cfg (laneBit a k) (laneBit b k) l) ∨
    (∃ sw, i = .swupd sw ∧ t = updateStable (pushSample sw s)) ∨
    (∃ id, i = .takeSteps id ∧ t = (s.setLane id (clearAcc (s.lane id))).respond (stepsResponse (s.lane id).acc)) ∨
    (∃ id, i = .takeSum id ∧ t = (s.setLane id (clearSum (s.lane id))).respond (sumResponse (s.lane id).sum)) ∨
    (∃ id, i = .takeBoth id ∧ t = (s.setLane id (clearSum (clearAcc (s.lane id)))).respond
      (bothResponse (s.lane id).acc (s.lane id).sum)) ∨
    (∃ v, isCommand i = true ∧ takesAcc i = none ∧ takesSum i = none ∧ t = s.respond v) := by
  cases i with
  | scan a b => exact .inl ⟨a, b, rfl, (next_inj h).symm⟩
  | swupd sw => exact .inr (.inl ⟨sw, rfl, (next_inj h).symm⟩)
  | takeSteps id => exact .inr (.inr (.inl ⟨id, rfl, (next_inj h).symm⟩))
  | takeSum id => exact .inr (.inr (.inr (.inl ⟨id, rfl, (next_inj h).symm⟩)))
  | takeBoth id => exact .inr (.inr (.inr (.inr (.inl ⟨id, rfl, (next_inj h).symm⟩))))
  | rdStable x => exact .inr (.inr (.inr (.inr (.inr ⟨_, rfl, rfl, rfl, (next_inj h).symm⟩))))
  | rdUp x => exact .inr (.inr (.inr (.inr (.inr ⟨_, rfl, rfl, rfl, (next_inj h).symm⟩))))
  | rdDown x => exact .inr (.inr (.inr (.inr (.inr ⟨_, rfl, rfl, rfl, (next_inj h).symm⟩))))
  | reservedOp0 x => exact .inr (.inr (.inr (.inr (.inr ⟨_, rfl, rfl, rfl, (next_inj h).symm⟩))))
  | reservedOp7 x => exact .inr (.inr (.inr (.inr (.inr ⟨_, rfl, rfl, rfl, (next_inj h).symm⟩))))
  | reservedOp8F op x => exact .inr (.inr (.inr (.inr (.inr ⟨_, rfl, rfl, rfl, (next_inj h).symm⟩))))

end Sys2Proof.Machine
end

