-- ==== Sys2Proof/Laws/Lane.lean ====
section
/-!
SUPPORT. What one lane step can do, said once, and the arithmetic of the accumulators.
-/

namespace Sys2Proof.Machine

/-! ### The hysteresis filter -/

/-- A result matches the latch exactly when the latch holds its direction. -/
theorem latchMatches_iff (d : Dir) (x : Latch) : latchMatches d x = true ↔ x = latchOf d := by
  cases d <;> cases x <;> decide

/-- The acceptance test of R128 as a disjunction. -/
theorem accepts_iff (c : Config) (d : Dir) (l : Lane) :
    accepts c d l = true ↔ c.T ≤ cycles l ∨ l.latch = latchOf d := by
  simp [accepts, latchMatches_iff]

theorem latchOf_ne_none (d : Dir) : latchOf d ≠ .none := by cases d <;> decide

/-- The code `0b10` does not occur (R33.2, R77). -/
theorem latchCode_ne (x : Latch) : latchCode x ≠ 0b10#2 := by cases x <;> decide

theorem latchOf_injective {d e : Dir} (h : latchOf d = latchOf e) : d = e := by
  revert h; cases d <;> cases e <;> decide

/-! ### One lane step -/

/-- A lane step on a directional result: the event's effects, with the accumulators as the filter decides. -/
theorem laneStep_of_event {c : Config} {ca cb : Bool} {l : Lane} {d : Dir}
    (h : classOf (laneResult c ca cb l) = .directional d) :
    laneStep c ca cb l =
      { pa := ca, pb := cb, idle := 0, latch := latchOf d,
        acc := if accepts c d l then addStep l.acc d else l.acc,
        sum := if accepts c d l then addCycles l.sum (cycles l) else l.sum } := by
  cases hx : accepts c d l <;>
    simp [laneStep, h, eventPath, latchEvent, storeSamples, acceptEvent, hx]

/-- A lane step on an idle or ambiguous result: one more idle scan, and the samples. -/
theorem laneStep_of_quiet {c : Config} {ca cb : Bool} {l : Lane}
    (h : ∀ d, classOf (laneResult c ca cb l) ≠ .directional d) :
    laneStep c ca cb l = { l with pa := ca, pb := cb, idle := min (l.idle + 1) c.C } := by
  cases hc : classOf (laneResult c ca cb l) with
  | idle => simp [laneStep, hc, storeSamples, idlePath]
  | ambiguous => simp [laneStep, hc, storeSamples, idlePath]
  | directional d => exact absurd hc (h d)

/-- The samples stored are always this step's (R131). -/
@[simp] theorem laneStep_samples (c : Config) (ca cb : Bool) (l : Lane) :
    (laneStep c ca cb l).pa = ca ∧ (laneStep c ca cb l).pb = cb := by
  cases hc : classOf (laneResult c ca cb l) with
  | directional d => simp [laneStep_of_event hc]
  | idle => simp [laneStep, hc, storeSamples]
  | ambiguous => simp [laneStep, hc, storeSamples]

/-- A lane step keeps the lane's invariants (R33.1, R33.2, R33.8). -/
theorem laneStep_inv {c : Config} {l : Lane} (ca cb : Bool) (h : LaneInv c l) : LaneInv c (laneStep c ca cb l) := by
  obtain ⟨-, hcode, hnone⟩ := h
  cases hc : classOf (laneResult c ca cb l) with
  | directional d =>
    rw [laneStep_of_event hc]
    exact ⟨Nat.zero_le _, latchCode_ne _, fun e => absurd e (latchOf_ne_none d)⟩
  | idle =>
    rw [laneStep_of_quiet (by simp [hc])]
    exact ⟨Nat.min_le_right _ _, hcode, hnone⟩
  | ambiguous =>
    rw [laneStep_of_quiet (by simp [hc])]
    exact ⟨Nat.min_le_right _ _, hcode, hnone⟩

/-! ### The accumulators -/

/-- The step accumulator wraps modulo 2^8, two's complement (R133). -/
theorem addStep_toInt (acc : BitVec 8) (d : Dir) : (addStep acc d).toInt = (acc.toInt + dirValue d).bmod (2 ^ 8) := by
  simp [addStep]

/-- The cycle sum wraps modulo 2^16 (R134). -/
theorem addCycles_toNat (sum : BitVec 16) (n : Nat) : (addCycles sum n).toNat = (sum.toNat + n) % 2 ^ 16 := by
  simp [addCycles]

end Sys2Proof.Machine
end

