-- ==== Sys2Proof/Laws/PerInstr.lean ====
section
/-!
SUPPORT. Statements made per operation, one lemma per constructor of Instr.
-/

namespace Sys2Proof.Laws.EncodeFormat

/-- The number of bits of an operation word (30_encoding.md R89). -/
def widthOf : OpWord → Nat
  | .scan _ => 32
  | .switch _ => 16
  | .command _ => 8

/-- The word of an operation has the length of the operation's format: 32 bits for SCAN, 16 for SWUPD, 8 for a CONSUMER
command, as spec/opcode_table.json lists them. -/
def Statement : Instr → Prop
  | .scan a b => widthOf (encode (.scan a b)) = 32
  | .swupd sw => widthOf (encode (.swupd sw)) = 16
  | i => widthOf (encode i) = 8

theorem scan (a b : Mask) : Statement (.scan a b) := rfl
theorem swupd (sw : Mask) : Statement (.swupd sw) := rfl
theorem takeSteps (id : LaneId) : Statement (.takeSteps id) := rfl
theorem takeSum (id : LaneId) : Statement (.takeSum id) := rfl
theorem takeBoth (id : LaneId) : Statement (.takeBoth id) := rfl
theorem rdStable (x : BitVec 4) : Statement (.rdStable x) := rfl
theorem rdUp (x : BitVec 4) : Statement (.rdUp x) := rfl
theorem rdDown (x : BitVec 4) : Statement (.rdDown x) := rfl
theorem reservedOp0 (x : BitVec 4) : Statement (.reservedOp0 x) := rfl
theorem reservedOp7 (x : BitVec 4) : Statement (.reservedOp7 x) := rfl
theorem reservedOp8F (op x : BitVec 4) : Statement (.reservedOp8F op x) := rfl

end Sys2Proof.Laws.EncodeFormat
end

