-- ==== Sys2Proof/Laws/Switch.lean ====
section
/-!
SUPPORT. What pushing a sample and recomputing the stable state do, field by field, and the bits of the masks.
-/

namespace Sys2Proof.Machine

section push
variable (sw : Mask) (s : State) (i : LaneId)

@[simp] theorem pushSample_cfg : (pushSample sw s).cfg = s.cfg := rfl
@[simp] theorem pushSample_lane : (pushSample sw s).lane i = s.lane i := rfl
@[simp] theorem pushSample_buf : (pushSample sw s).buf = s.buf.set s.widx sw := rfl
@[simp] theorem pushSample_widx : (pushSample sw s).widx = (s.widx + 1) % s.cfg.debounceDepth := rfl
@[simp] theorem pushSample_stable : (pushSample sw s).stable = s.stable := rfl
@[simp] theorem pushSample_rsp : (pushSample sw s).rsp = s.rsp := rfl
@[simp] theorem pushSample_pending : (pushSample sw s).pending = s.pending := rfl

@[simp] theorem updateStable_cfg : (updateStable s).cfg = s.cfg := rfl
@[simp] theorem updateStable_lane : (updateStable s).lane i = s.lane i := rfl
@[simp] theorem updateStable_buf : (updateStable s).buf = s.buf := rfl
@[simp] theorem updateStable_widx : (updateStable s).widx = s.widx := rfl
@[simp] theorem updateStable_stable : (updateStable s).stable = orAll s.buf := rfl
@[simp] theorem updateStable_up : (updateStable s).up = upEdges s.stable (orAll s.buf) := rfl
@[simp] theorem updateStable_down : (updateStable s).down = downEdges s.stable (orAll s.buf) := rfl
@[simp] theorem updateStable_rsp : (updateStable s).rsp = s.rsp := rfl
@[simp] theorem updateStable_pending : (updateStable s).pending = s.pending := rfl

end push

/-- A bit of the OR of all slots is set exactly when it is set in some slot (R102). -/
theorem orAll_getLsbD (buf : List Mask) (j : Nat) :
    (orAll buf).getLsbD j = true ↔ ∃ x ∈ buf, x.getLsbD j = true := by
  induction buf with
  | nil => simp [orAll]
  | cons x xs ih =>
    have e : orAll (x :: xs) = x ||| orAll xs := rfl
    simp [e, ih]

/-- The OR of zero words is zero. -/
@[simp] theorem orAll_replicate_zero (n : Nat) : orAll (List.replicate n 0#16) = 0#16 := by
  induction n with
  | zero => rfl
  | succ n ih =>
    have e : orAll (List.replicate (n + 1) 0#16) = 0#16 ||| orAll (List.replicate n 0#16) := rfl
    rw [e, ih]; rfl

/-- A bit of the release mask (R103). -/
@[simp] theorem upEdges_getLsbD (p q : Mask) (j : Nat) :
    (upEdges p q).getLsbD j = (p.getLsbD j && !q.getLsbD j) := by
  cases hp : p.getLsbD j <;> cases hq : q.getLsbD j <;> simp [upEdges, hp, hq]

/-- A bit of the press mask (R103). -/
@[simp] theorem downEdges_getLsbD (p q : Mask) (j : Nat) :
    (downEdges p q).getLsbD j = (q.getLsbD j && !p.getLsbD j) := by
  cases hp : p.getLsbD j <;> cases hq : q.getLsbD j <;> simp [downEdges, hp, hq]

@[simp] theorem upEdges_getElem (p q : Mask) (j : Nat) (h : j < 16) : (upEdges p q)[j] = (p[j] && !q[j]) := by
  simpa [BitVec.getLsbD_eq_getElem h] using upEdges_getLsbD p q j

@[simp] theorem downEdges_getElem (p q : Mask) (j : Nat) (h : j < 16) : (downEdges p q)[j] = (q[j] && !p[j]) := by
  simpa [BitVec.getLsbD_eq_getElem h] using downEdges_getLsbD p q j

/-- No switch is released and pressed at once (R33.5). -/
theorem upEdges_and_downEdges (p q : Mask) : upEdges p q &&& downEdges p q = 0#16 := by
  ext j h
  cases hp : p[j] <;> cases hq : q[j] <;> simp [hp, hq]

/-- A released switch is not stable (R33.6). -/
theorem upEdges_and_stable (p q : Mask) : upEdges p q &&& q = 0#16 := by
  ext j h
  cases hq : q[j] <;> simp [hq]

/-- A pressed switch is stable (R33.7). -/
theorem downEdges_and_not_stable (p q : Mask) : downEdges p q &&& ~~~q = 0#16 := by
  ext j h
  cases hq : q[j] <;> simp [hq]

/-- The release mask in the second form of R103. -/
theorem upEdges_eq (p q : Mask) : upEdges p q = p &&& ~~~q := by
  ext j h
  simp

/-- The press mask in the second form of R103. -/
theorem downEdges_eq (p q : Mask) : downEdges p q = q &&& ~~~p := by
  ext j h
  simp

end Sys2Proof.Machine
end

