-- ==== Sys2Proof/Laws/Trace.lean ====
section
/-!
SUPPORT. What an operation does to one lane, by whether it is an event of the lane, and what it never changes.
-/

namespace Sys2Proof.Machine

/-- No operation changes the parameters (R31). -/
theorem exec_cfg {i : Instr} {s t : State} (h : exec i s = .next t) : t.cfg = s.cfg := by
  rcases exec_next_cases h with ⟨_, _, _, rfl⟩ | ⟨_, _, rfl⟩ | ⟨_, _, rfl⟩ | ⟨_, _, rfl⟩ | ⟨_, _, rfl⟩ | ⟨_, _, _, _, rfl⟩ <;>
    rfl

/-- No operation changes what the agents will present. -/
theorem exec_pending {i : Instr} {s t : State} (h : exec i s = .next t) : t.pending = s.pending := by
  rcases exec_next_cases h with ⟨_, _, _, rfl⟩ | ⟨_, _, rfl⟩ | ⟨_, _, rfl⟩ | ⟨_, _, rfl⟩ | ⟨_, _, rfl⟩ | ⟨_, _, _, _, rfl⟩ <;>
    rfl

/-- Only a SCAN has events, and an event is a directional result. -/
theorem eventOf_eq_some {id : LaneId} {i : Instr} {s : State} {d : Dir} (h : eventOf id i s = some d) :
    ∃ a b, i = .scan a b ∧
      classOf (laneResult s.cfg (laneBit a id) (laneBit b id) (s.lane id)) = .directional d := by
  cases i with
  | scan a b =>
    refine ⟨a, b, rfl, ?_⟩
    unfold eventOf at h
    cases hc : classOf (laneResult s.cfg (laneBit a id) (laneBit b id) (s.lane id)) <;> simp [hc] at h
    rw [h]
  | _ => simp [eventOf] at h

/-- A SCAN that is no event of a lane has an idle or ambiguous result for it. -/
theorem not_directional_of_eventOf_none {id : LaneId} {a b : Mask} {s : State}
    (h : eventOf id (.scan a b) s = none) (d : Dir) :
    classOf (laneResult s.cfg (laneBit a id) (laneBit b id) (s.lane id)) ≠ .directional d := by
  intro hc
  simp [eventOf, hc] at h

/-- An accepted event is an event that passes the filter. -/
theorem acceptedEvent_eq_some {id : LaneId} {i : Instr} {s : State} {d : Dir} :
    acceptedEvent id i s = some d ↔ eventOf id i s = some d ∧ accepts s.cfg d (s.lane id) = true := by
  unfold acceptedEvent
  cases eventOf id i s with
  | none => simp
  | some e =>
    constructor
    · intro h
      by_cases ha : accepts s.cfg e (s.lane id) = true
      · simp only [ha, if_true, Option.some.injEq] at h
        exact ⟨congrArg some h, h ▸ ha⟩
      · simp [ha] at h
    · rintro ⟨h, ha⟩
      cases h
      simp [ha]

/-- A lane after an event of it. -/
theorem lane_after_event {id : LaneId} {i : Instr} {s t : State} {d : Dir} (h : eventOf id i s = some d)
    (hx : exec i s = .next t) :
    (t.lane id).latch = latchOf d ∧ (t.lane id).idle = 0 ∧
    (t.lane id).acc = (if accepts s.cfg d (s.lane id) then addStep (s.lane id).acc d else (s.lane id).acc) ∧
    (t.lane id).sum =
      (if accepts s.cfg d (s.lane id) then addCycles (s.lane id).sum (cycles (s.lane id)) else (s.lane id).sum) := by
  obtain ⟨a, b, rfl, hc⟩ := eventOf_eq_some h
  rw [exec_scan] at hx
  have e := next_inj hx
  subst e
  simp [laneStep_of_event hc]

/-- A lane after a SCAN that is no event of it. -/
theorem lane_after_quiet_scan {id : LaneId} {a b : Mask} {s t : State} (h : eventOf id (.scan a b) s = none)
    (hx : exec (.scan a b) s = .next t) :
    t.lane id = { s.lane id with pa := laneBit a id, pb := laneBit b id,
                                 idle := min ((s.lane id).idle + 1) s.cfg.C } := by
  rw [exec_scan] at hx
  have e := next_inj hx
  subst e
  rw [State.lane_mapLanes, laneStep_of_quiet (not_directional_of_eventOf_none h)]

/-- The samples a trace pushes, taken apart. -/
theorem samplesOf_append (xs ys : List Instr) : samplesOf (xs ++ ys) = samplesOf xs ++ samplesOf ys := by
  induction xs with
  | nil => rfl
  | cons i is ih => cases i <;> simp [samplesOf, ih]

end Sys2Proof.Machine
end

