-- ==== Sys2Proof/Laws/Words.lean ====
section
/-!
SUPPORT. The fields of a command word and of a response word come back out of them.
-/

namespace Sys2Proof

/-- The operation code of a command word put together from its fields. -/
@[simp] theorem opField_commandWord (op x : BitVec 4) : opField (commandWord op x) = op :=
  BitVec.extractLsb'_append_eq_left

/-- The `id` field of a command word put together from its fields. -/
@[simp] theorem idField_commandWord (op x : BitVec 4) : idField (commandWord op x) = x :=
  BitVec.extractLsb'_append_eq_right

/-- A command word is its two fields. -/
@[simp] theorem commandWord_fields (w : BitVec 8) : commandWord (opField w) (idField w) = w := by
  revert w; decide +kernel

@[simp] theorem laneOfField_fieldOfLane (id : LaneId) : laneOfField (fieldOfLane id) = id := rfl

@[simp] theorem fieldOfLane_laneOfField (x : BitVec 4) : fieldOfLane (laneOfField x) = x := rfl

namespace Machine

/-- The steps come back out of a TAKE_STEPS response. -/
@[simp] theorem stepsOfTakeSteps_stepsResponse (acc : BitVec 8) : stepsOfTakeSteps (stepsResponse acc) = acc.toInt := by
  revert acc; decide +kernel

/-- The steps come back out of a TAKE_BOTH response. -/
@[simp] theorem stepsOfTakeBoth_bothResponse (acc : BitVec 8) (sum : BitVec 16) :
    stepsOfTakeBoth (bothResponse acc sum) = acc.toInt := by
  have e : (bothResponse acc sum).extractLsb' 16 8 = acc := BitVec.extractLsb'_append_eq_left
  simp [stepsOfTakeBoth, e]

/-- The sum comes back out of a TAKE_BOTH response. -/
@[simp] theorem sumOfResponse_bothResponse (acc : BitVec 8) (sum : BitVec 16) :
    sumOfResponse (bothResponse acc sum) = sum.toNat := by
  have e : (bothResponse acc sum).extractLsb' 0 16 = sum := BitVec.extractLsb'_append_eq_right
  simp [sumOfResponse, e]

/-- The sum comes back out of a TAKE_SUM response. -/
@[simp] theorem sumOfResponse_sumResponse (sum : BitVec 16) : sumOfResponse (sumResponse sum) = sum.toNat := by
  have e : (sumResponse sum).extractLsb' 0 16 = sum := by
    apply BitVec.eq_of_getLsbD_eq
    intro i hi
    simp [sumResponse, hi]
    omega
  simp [sumOfResponse, e]

end Machine

end Sys2Proof
end

