-- ==== Sys2Proof/Tests/Slice0.lean ====
section
/-!
SUPPORT. Tests of the model against words written out from the encodings of spec/30_encoding.md and values copied from
spec/95_test_vectors.md, and for every statement with hypotheses a witness that meets them.
-/

namespace Sys2Proof.Tests

open Sys2Proof Sys2Proof.Machine

/-! ### Small states -/

/-- A test configuration (95_test_vectors.md, "Test configurations") with the default table. -/
def cfg (depth : Nat) (T : Fin 65536) (C : Fin 65535) : Config :=
  { debounceDepth := depth, debounceCycleTimeout := T, idleCeiling := C, qtable := defaultQTable,
    swStrobeSource := .consumerTick }

/-- CFG-V1. -/
def v1 : Config := cfg 3 4 6

/-- A lane, written as the vectors write it: `PA PB / IDLE / LATCH / ACC / SUM`. -/
def lane (pa pb : Bool) (idle : Nat) (latch : Latch) (acc : Int) (sum : Nat) : Lane :=
  { pa := pa, pb := pb, idle := idle, latch := latch, acc := BitVec.ofInt 8 acc, sum := BitVec.ofNat 16 sum }

/-- The reset state with one other lane. -/
def withLane (c : Config) (i : LaneId) (l : Lane) : State := (State.resetWith c).setLane i l

/-- The reset state with another debounce half. -/
def withSwitches (c : Config) (buf : List Mask) (widx : Nat) (stable up down : Mask) : State :=
  { State.resetWith c with buf := buf, widx := widx, stable := stable, up := up, down := down }

/-- The state an operation leaves. -/
def after (i : Instr) (s : State) : State :=
  match exec i s with
  | .next t => t
  | .fault _ => s
  | .refused _ => s

/-- The state a clock leaves. -/
def tick (s : State) : State :=
  match step s with
  | .next t => t
  | .fault _ => s
  | .refused _ => s

theorem exec_after (i : Instr) (s : State) : exec i s = .next (after i s) := by cases i <;> rfl

theorem runTrace_after (is : List Instr) (s : State) :
    runTrace is s = .next (is.foldl (fun t i => after i t) s) := by
  induction is generalizing s with
  | nil => rfl
  | cons i is ih => simp only [runTrace, exec_after, andThen, ih, List.foldl_cons]

/-! ### Well-formedness: an ill-formed term for each check -/

theorem test_reserved_op_below_eight_is_ill_formed : Instr.wf (.reservedOp8F 0x3#4 0x0#4) = false := by decide

theorem test_reserved_op_eight_is_well_formed : Instr.wf (.reservedOp8F 0x8#4 0x0#4) = true := by decide

theorem test_empty_buffer_is_ill_formed : (cfg 0 4 6).wf = false := by decide

theorem test_no_format_of_width : wordOfBits 12 0 = .error (.noFormatOfWidth 12) := by decide

theorem test_value_too_wide : wordOfBits 8 256 = .error (.valueTooWide 8 256) := by decide

theorem test_refused_words_are_none : decodeTableWord 24 0 = none ∧ decodeTableWord 8 256 = none := by decide

/-! ### Decoding: words written out bit by bit (V-E2, V-E4; R78, R79, R84) -/

theorem test_decode_scan :
    decodeTableWord 32 0b10000000000000010000000000000011 = some (.scan 0x8001#16 0x0003#16) := by decide

theorem test_decode_swupd : decodeTableWord 16 0b0001000000001000 = some (.swupd 0x1008#16) := by decide

theorem test_decode_takes :
    decodeTableWord 8 0b00011111 = some (.takeSteps 15) ∧ decodeTableWord 8 0b00100101 = some (.takeSum 5) ∧
    decodeTableWord 8 0b00111001 = some (.takeBoth 9) := by decide

theorem test_decode_reads :
    decodeTableWord 8 0b01001111 = some (.rdStable 15#4) ∧ decodeTableWord 8 0b01011010 = some (.rdUp 10#4) ∧
    decodeTableWord 8 0b01100001 = some (.rdDown 1#4) := by decide

theorem test_decode_reserved :
    decodeTableWord 8 0b00001111 = some (.reservedOp0 15#4) ∧ decodeTableWord 8 0b01111010 = some (.reservedOp7 10#4) ∧
    decodeTableWord 8 0b10100101 = some (.reservedOp8F 10#4 5#4) := by decide

/-- Encoded: `TAKE_BOTH 9` is `0x39`, `SCAN a=0x000A b=0x000C` is `0x000A000C` (V-E4, V-S16). -/
theorem test_encode_words :
    encode (.takeBoth 9) = .command 0x39#8 ∧ encode (.scan 0x000A#16 0x000C#16) = .scan 0x000A000C#32 := by decide

/-! ### One step each (95_test_vectors.md) -/

/-- V-S0 reads a lane after one scan by the key `PA PB A B`, from `IDLE = 2`, `LATCH = FWD`, `ACC = 10`, `SUM = 100`. -/
def scanned (pa pb a b : Bool) : Lane :=
  (after (.scan (BitVec.ofNat 16 a.toNat) (BitVec.ofNat 16 b.toNat)) (withLane v1 0 (lane pa pb 2 .fwd 10 100))).lane 0

/-- V-S0: all 16 keys under CFG-V1, keys 0 to 15 in order. -/
theorem test_scan_all_keys :
    scanned false false false false = lane false false 3 .fwd 10 100 ∧
    scanned false false false true = lane false true 0 .bwd 10 100 ∧
    scanned false false true false = lane true false 0 .fwd 11 103 ∧
    scanned false false true true = lane true true 3 .fwd 10 100 ∧
    scanned false true false false = lane false false 0 .fwd 11 103 ∧
    scanned false true false true = lane false true 3 .fwd 10 100 ∧
    scanned false true true false = lane true false 3 .fwd 10 100 ∧
    scanned false true true true = lane true true 0 .bwd 10 100 ∧
    scanned true false false false = lane false false 0 .bwd 10 100 ∧
    scanned true false false true = lane false true 3 .fwd 10 100 ∧
    scanned true false true false = lane true false 3 .fwd 10 100 ∧
    scanned true false true true = lane true true 0 .fwd 11 103 ∧
    scanned true true false false = lane false false 3 .fwd 10 100 ∧
    scanned true true false true = lane false true 0 .fwd 11 103 ∧
    scanned true true true false = lane true false 0 .bwd 10 100 ∧
    scanned true true true true = lane true true 3 .fwd 10 100 := by decide +kernel

/-- V-S2 row 6 and V-S3 fix the comparison `IDLE + 1 >= T`; V-S9 wraps both accumulators; V-S4 accepts at the ceiling. -/
theorem test_scan_boundaries :
    (after (.scan 1#16 0#16) (withLane v1 0 (lane true true 3 .fwd 1 1))).lane 0 = lane true false 0 .bwd 0 5 ∧
    (after (.scan 1#16 0#16) (withLane v1 0 (lane true true 2 .fwd 1 1))).lane 0 = lane true false 0 .bwd 1 1 ∧
    (after (.scan 1#16 0#16) (withLane v1 0 (lane false false 6 .fwd 127 65530))).lane 0 =
      lane true false 0 .fwd (-128) 1 ∧
    (after (.scan 1#16 0#16) (withLane v1 0 (lane false false 6 .none 0 0))).lane 0 = lane true false 0 .fwd 1 7 ∧
    (after (.scan 0#16 0#16) (withLane v1 0 (lane false false 6 .none 0 0))).lane 0 = lane false false 6 .none 0 0 := by
  decide +kernel

/-- V-D4 row 4: an UP and a DOWN at once. -/
theorem test_swupd_up_and_down :
    after (.swupd 0x0006#16) (withSwitches v1 [0x0005#16, 0x0004#16, 0x0004#16] 0 0x0005#16 0#16 0#16) =
      withSwitches v1 [0x0006#16, 0x0004#16, 0x0004#16] 1 0x0006#16 0x0001#16 0x0002#16 := by decide +kernel

/-- V-D1 row 5: the third clear sample overwrites the slot that held the set one. -/
theorem test_swupd_release :
    after (.swupd 0x0000#16) (withSwitches v1 [0x0000#16, 0x0001#16, 0x0000#16] 1 0x0001#16 0#16 0#16) =
      withSwitches v1 [0x0000#16, 0x0000#16, 0x0000#16] 2 0x0000#16 0x0001#16 0x0000#16 := by decide +kernel

/-- The start state of V-T1 and V-T2. -/
def taken : State := withLane v1 5 (lane false false 2 .bwd (-3) 17)

/-- V-T1: `TAKE_STEPS 5 -> -3`. -/
theorem test_take_steps :
    after (.takeSteps 5) taken = (withLane v1 5 (lane false false 2 .bwd 0 17)).respond 0xFFFFFD#24 := by decide +kernel

/-- V-T1: `TAKE_SUM 5 -> 17`. -/
theorem test_take_sum :
    after (.takeSum 5) taken = (withLane v1 5 (lane false false 2 .bwd (-3) 0)).respond 0x000011#24 := by decide +kernel

/-- V-T2: `TAKE_BOTH 5 -> (-3, 17)`. -/
theorem test_take_both :
    after (.takeBoth 5) taken = (withLane v1 5 (lane false false 2 .bwd 0 0)).respond 0xFD0011#24 := by decide +kernel

/-- V-E5: the ends of the ranges. -/
theorem test_take_both_ends :
    (after (.takeBoth 2) (withLane v1 2 (lane false false 0 .bwd (-128) 65535))).rsp = some 0x80FFFF#24 ∧
    (after (.takeSteps 0) (withLane v1 0 (lane false false 0 .fwd 127 0))).rsp = some 0x00007F#24 := by decide +kernel

/-- A debounce half for the reads, with the values of V-R1. -/
def flagged : State := withSwitches v1 [0x0001#16, 0#16, 0#16] 1 0x0001#16 0x0002#16 0x0001#16

/-- V-R1: `H=0x4F`, `H=0x5A`, `H=0x61` read the masks, whatever the `id`. -/
theorem test_reads :
    after (.rdStable 15#4) flagged = flagged.respond 0x000001#24 ∧
    after (.rdUp 10#4) flagged = flagged.respond 0x000002#24 ∧
    after (.rdDown 1#4) flagged = flagged.respond 0x000001#24 := by decide +kernel

/-- V-R1: `H=0x0F`, `H=0x70`, `H=0xA5` do nothing. -/
theorem test_reserved :
    after (.reservedOp0 15#4) flagged = flagged.respond 0x000000#24 ∧
    after (.reservedOp7 0#4) flagged = flagged.respond 0x000000#24 ∧
    after (.reservedOp8F 10#4 5#4) flagged = flagged.respond 0x000000#24 := by decide +kernel

/-! ### One clock each -/

/-- V-T5: a take in the same clock as a SCAN answers the values without that SCAN's step. -/
theorem test_take_and_scan_in_one_clock :
    (let t := tick { withLane v1 0 (lane true false 0 .fwd 1 1) with
        pending := [{ rst := false, scan := some 0x00010001#32, switch := none, command := some 0x30#8 }] }
     (t.lane 0, t.rsp, t.pending)) = (lane true true 0 .fwd 1 1, some 0x010001#24, []) := by decide +kernel

/-- V-X1: `rst` with a strobe high: the strobe's operation is not performed. -/
theorem test_reset_ignores_strobes :
    tick { withLane v1 0 (lane true false 3 .fwd 5 9) with
        pending := [{ rst := true, scan := none, switch := none, command := some 0x10#8 }] } =
      State.resetWith v1 := by decide +kernel

/-- The outcome of a step is a next state. -/
def goesOn (o : Host.Outcome State Fault Refusal) : Bool :=
  match o with
  | .next _ => true
  | .fault _ => false
  | .refused _ => false

/-- One word of each format runs as the first operation after reset. -/
theorem test_first_word_after_reset :
    goesOn (step (State.reset.withFetchWord 32 0x00010000)) = true ∧
    goesOn (step (State.reset.withFetchWord 16 0x0004)) = true ∧
    goesOn (step (State.reset.withFetchWord 8 0x15)) = true ∧
    goesOn (step (State.reset.withFetchWord 8 0xFF)) = true := by decide +kernel

/-- 30_encoding.md R6 examples: `IDLE_W` of CFG-V1 is 3 and of CFG-V5 is 16 (95_test_vectors.md, "Test
configurations"). -/
theorem test_idle_width : idleW v1 = 3 ∧ idleW (cfg 3 4 65534) = 16 ∧ widxW (cfg 10 4 6) = 4 := by decide +kernel

/-! ### Witnesses: concrete inputs that meet the hypotheses of the statements -/

theorem inv_of_reset (c : Config) (h : 1 ≤ c.debounceDepth) : Inv (State.resetWith c) where
  depth_pos := h
  buf_full := by simp
  lanes_inv i := by simp [Lane.reset, LaneInv, latchCode]
  widx_slot := h
  stable_or := by simp
  up_down := by simp
  up_stable := by simp
  down_stable := by simp

/-- A running lane keeps the reset state within the invariants. -/
theorem inv_of_lane (l : Lane) (h : LaneInv v1 l) (i : LaneId) : Inv (withLane v1 i l) where
  depth_pos := (inv_of_reset v1 (by decide)).depth_pos
  buf_full := (inv_of_reset v1 (by decide)).buf_full
  lanes_inv j := by
    unfold withLane
    rw [State.lane_setLane]
    split
    · exact h
    · exact (inv_of_reset v1 (by decide)).lanes_inv j
  widx_slot := (inv_of_reset v1 (by decide)).widx_slot
  stable_or := (inv_of_reset v1 (by decide)).stable_or
  up_down := (inv_of_reset v1 (by decide)).up_down
  up_stable := (inv_of_reset v1 (by decide)).up_stable
  down_stable := (inv_of_reset v1 (by decide)).down_stable

/-- A lane turning forward that has rested for `idle` scans. -/
def turning (idle : Nat) (acc : Int) (sum : Nat) : State := withLane v1 0 (lane true true idle .fwd acc sum)

theorem witness_DecodeOfEncodeIsTheOperation : Instr.wf (.reservedOp8F 0xF#4 0x5#4) = true := by decide

theorem witness_CommandWordsHaveTheirOperationCodes :
    0x10 ≤ (0x10#8).toNat ∧ (0x3F#8).toNat < 0x40 ∧ isReserved (decode (.command 0x0F#8)) = true ∧
    isReserved (decode (.command 0x10#8)) = false ∧ isReserved (decode (.command 0x6F#8)) = false ∧
    isReserved (decode (.command 0x70#8)) = true := by decide

theorem witness_DefaultTableCountsEveryEdge : ((false != true) != (true != true)) = true := by decide

theorem witness_ResponseWordsCarryTheTypedResults : 8 ≤ 23 ∧ 23 < 24 := by decide

theorem witness_ResetPinResetsEveryElement :
    ({ taken with pending := [{ Pins.quiet with rst := true }] } : State).pending = { Pins.quiet with rst := true } :: [] ∧
    ({ Pins.quiet with rst := true } : Pins).rst = true := by decide

theorem witness_StepRunsTheDecodedOperation :
    (present (.command 0x15#8) taken).pending = pinsOf (.command 0x15#8) :: taken.pending ∧
    decodeTableWord 8 0x15 = some (.takeSteps 5) := by decide +kernel

theorem witness_SimultaneousStrobesRunCommandFirst :
    (nextPins { taken with pending :=
      [{ rst := false, scan := some 0x00010001#32, switch := some 1#16, command := some 0x30#8 }] }).rst = false := by
  decide

theorem witness_QuietClockHoldsTheState :
    taken.pending = [] ∧ ∃ rest, ({ taken with pending := [Pins.quiet] } : State).pending = Pins.quiet :: rest :=
  ⟨rfl, [], rfl⟩

theorem witness_ParametersNeverChange :
    step taken = .next (tick taken) ∧ Host.Core.run Sys2Proof.core 1 taken = .next (tick taken) := ⟨rfl, rfl⟩

theorem witness_ResponsePortIsNeverRead :
    exec (.takeSteps 5) taken = .next (after (.takeSteps 5) taken) ∧ isCommand (.takeSteps 5) = true ∧
    exec (.swupd 1#16) taken = .next (after (.swupd 1#16) taken) ∧ isCommand (.swupd 1#16) = false :=
  ⟨rfl, rfl, rfl, rfl⟩

theorem witness_ClockRunsAreOperationTraces :
    (∀ p ∈ [pinsOf (.scan 0x00010001#32), pinsOf (.command 0x30#8)], p.rst = false) ∧
    ({ taken with pending := [pinsOf (.scan 0x00010001#32), pinsOf (.command 0x30#8)] } : State).pending =
      [pinsOf (.scan 0x00010001#32), pinsOf (.command 0x30#8)] := by decide

theorem witness_InvariantsHoldAtReset : v1.wf = true := by decide

theorem witness_EveryOperationKeepsInvariants :
    Inv (turning 3 1 1) ∧ exec (.scan 1#16 0#16) (turning 3 1 1) = .next (after (.scan 1#16 0#16) (turning 3 1 1)) :=
  ⟨inv_of_lane _ (by decide) 0, rfl⟩

theorem witness_EveryStepKeepsInvariants :
    Inv (turning 3 1 1) ∧ step (turning 3 1 1) = .next (tick (turning 3 1 1)) ∧ v1.wf = true ∧
    Host.Core.run Sys2Proof.core 1 ({ State.resetWith v1 with pending := [Pins.quiet] } : State) =
      .next (tick { State.resetWith v1 with pending := [Pins.quiet] }) :=
  ⟨inv_of_lane _ (by decide) 0, rfl, rfl, rfl⟩

theorem witness_CountersFitTheirDerivedWidths :
    Inv (turning 6 1 1) ∧ 1 ≤ 3 ∧ (turning 6 1 1).cfg.C < 2 ^ 3 ∧ (turning 6 1 1).cfg.debounceDepth ≤ 2 ^ 2 :=
  ⟨inv_of_lane _ (by decide) 0, by decide, by decide, by decide⟩

theorem witness_OperationsWriteOnlyTheirElements :
    exec (.takeBoth 5) taken = .next (after (.takeBoth 5) taken) ∧
    exec (.swupd 4#16) taken = .next (after (.swupd 4#16) taken) ∧
    exec (.reservedOp8F 9#4 0#4) taken = .next (after (.reservedOp8F 9#4 0#4) taken) := ⟨rfl, rfl, rfl⟩

/-- A pair for each line of 20_memory.md R61, and a pair that does not commute. -/
theorem witness_OperationsThatShareNoStateCommute :
    shareNoState (.swupd 1#16) (.scan 1#16 0#16) = true ∧ shareNoState (.takeBoth 1) (.takeBoth 2) = true ∧
    shareNoState (.takeSteps 1) (.takeSum 1) = true ∧ shareNoState (.rdUp 0#4) (.rdDown 0#4) = true ∧
    shareNoState (.scan 1#16 0#16) (.takeSteps 1) = false ∧ shareNoState (.swupd 1#16) (.rdUp 0#4) = false ∧
    shareNoState (.scan 1#16 0#16) (.scan 1#16 0#16) = false ∧ shareNoState (.swupd 1#16) (.swupd 1#16) = false ∧
    shareNoState (.takeBoth 1) (.takeSum 1) = false := by decide

theorem witness_IdleOrAmbiguousResultCountsAnIdleScan :
    classOf (tableRead v1 (laneKey (lane true true 6 .fwd 1 1) true true)) = .idle ∧
    classOf (tableRead v1 (laneKey (lane true true 6 .fwd 1 1) false false)) = .ambiguous ∧
    (lane true true 6 .fwd 1 1).idle = v1.C ∧ (cfg 3 4 0).C = 0 := by decide +kernel

/-- An accepted event by timeout, one by match, and a rejected one. -/
theorem witness_DirectionalResultPassesTheHysteresisFilter :
    tableRead v1 (laneKey (lane true true 3 .fwd 1 1) true false) = .backward ∧ entryValue .backward = -1 ∧
    v1.T ≤ (lane true true 3 .fwd 1 1).idle + 1 ∧
    tableRead v1 (laneKey (lane true true 0 .fwd 1 1) false true) = .forward ∧ entryValue .forward = 1 ∧
    (lane true true 0 .fwd 1 1).latch = .fwd ∧
    ¬ (v1.T ≤ (lane true true 2 .fwd 1 1).idle + 1 ∨
        (entryValue .backward = 1 ∧ (lane true true 2 .fwd 1 1).latch = .fwd) ∨
        (entryValue .backward = -1 ∧ (lane true true 2 .fwd 1 1).latch = .bwd)) := by decide +kernel

/-- Both ends of the step accumulator, an exact step, and a sum that wraps. -/
theorem witness_AccumulatorsWrapAtTheEnds :
    Inv (turning 0 127 65535) ∧
    acceptedEvent 0 (.scan 0#16 1#16) (turning 0 127 65535) = some .forward ∧
    ((turning 0 127 65535).lane 0).acc.toInt = 127 ∧
    acceptedEvent 0 (.scan 1#16 0#16) (turning 3 (-128) 1) = some .backward ∧
    ((turning 3 (-128) 1).lane 0).acc.toInt = -128 ∧
    ((turning 3 1 1).lane 0).acc.toInt + dirValue .backward ≤ 127 :=
  ⟨inv_of_lane _ (by decide) 0, by decide +kernel, by decide +kernel, by decide +kernel, by decide +kernel,
    by decide +kernel⟩

theorem witness_LanesAreIndependent :
    (withLane v1 1 (lane true true 0 .fwd 1 1)).cfg = (State.resetWith v1).cfg ∧
    (withLane v1 1 (lane true true 0 .fwd 1 1)).lane 0 = (State.resetWith v1).lane 0 ∧
    (0x0003#16).getLsbD 0 = (0x0001#16).getLsbD 0 ∧
    exec (.scan 3#16 0#16) taken = .next (after (.scan 3#16 0#16) taken) := by
  refine ⟨rfl, ?_, ?_, exec_after _ _⟩ <;> decide +kernel

theorem witness_LatchIsWrittenByEventsAlone :
    eventOf 0 (.scan 0#16 1#16) (turning 0 1 1) = some .forward ∧
    eventOf 0 (.scan 1#16 0#16) (turning 0 1 1) = some .backward ∧
    eventOf 0 (.scan 1#16 1#16) (turning 0 1 1) = none ∧
    ((after (.scan 0#16 0#16) (State.resetWith v1)).lane 0).latch = .none := by decide +kernel

theorem witness_IdleCounterIsClearedByEventsAlone :
    Inv (turning 3 1 1) ∧ ((turning 3 1 1).lane 0).idle ≠ 0 ∧
    ((after (.scan 0#16 1#16) (turning 3 1 1)).lane 0).idle = 0 ∧
    eventOf 0 (.scan 0#16 1#16) (turning 3 1 1) ≠ none ∧ isCommand (.takeSum 0) = true :=
  ⟨inv_of_lane _ (by decide) 0, by decide +kernel, by decide +kernel, by decide +kernel, rfl⟩

theorem witness_SameScanWordTwiceIsIdle :
    (∀ k : Fin 16, k.val ∈ [0, 5, 10, 15] → classOf (v1.qtable.get k) = .idle) ∧
    exec (.scan 5#16 2#16) taken = .next (after (.scan 5#16 2#16) taken) :=
  ⟨by decide +kernel, exec_after _ _⟩

theorem witness_DegenerateTimeouts :
    eventOf 0 (.scan 1#16 0#16) (withLane (cfg 3 1 6) 0 (lane true true 0 .fwd 1 1)) = some .backward ∧
    (cfg 3 1 6).T ≤ 1 ∧
    Inv (State.resetWith (cfg 3 9 6)) ∧ (cfg 3 9 6).C + 1 < (cfg 3 9 6).T ∧
    eventOf 0 (.scan 1#16 0#16) (State.resetWith (cfg 3 9 6)) = some .forward ∧
    eventOf 0 (.scan 1#16 1#16) (after (.scan 1#16 0#16) (State.resetWith (cfg 3 9 6))) = some .forward :=
  ⟨by decide +kernel, by decide, inv_of_reset _ (by decide), by decide, by decide +kernel, by decide +kernel⟩

/-- V-S1 rows 4 and 5, with an idle scan between. -/
theorem witness_RejectedReversalPrimesTheNextStep :
    let s := withLane v1 0 (lane false true 0 .fwd 2 2)
    let t := after (.scan 1#16 1#16) s
    let u := after (.scan 1#16 1#16) t
    eventOf 0 (.scan 1#16 1#16) s = some .backward ∧ (s.lane 0).latch ≠ latchOf .backward ∧
    cycles (s.lane 0) < s.cfg.T ∧ eventOf 0 (.scan 1#16 1#16) t = none ∧
    runTrace [.scan 1#16 1#16] t = .next u ∧ eventOf 0 (.scan 1#16 0#16) u = some .backward := by
  refine ⟨?_, ?_, ?_, ?_, rfl, ?_⟩ <;> decide +kernel

/-- V-S8. -/
theorem witness_GlitchPairLeavesTheAccumulators :
    let s := withLane v1 0 (lane false true 0 .fwd 2 2)
    let t := after (.scan 1#16 1#16) s
    2 ≤ s.cfg.T ∧ (s.lane 0).latch = latchOf .forward ∧ cycles (s.lane 0) < s.cfg.T ∧
    eventOf 0 (.scan 1#16 1#16) s = some .backward ∧ eventOf 0 (.scan 0#16 1#16) t = some .forward := by decide +kernel

/-- One idle scan short of the timeout (lost), the timeout itself (accepted), and a trace of two idle scans between an
event and its reversal. -/
theorem witness_ReversalIsLostOnlyWithoutQuiescence :
    let s := withLane v1 0 (lane false true 0 .fwd 2 2)
    let t := after (.scan 1#16 1#16) s
    let u := after (.scan 1#16 1#16) (after (.scan 1#16 1#16) t)
    (eventOf 0 (.scan 1#16 0#16) (turning 2 1 1) = some .backward ∧
      acceptedEvent 0 (.scan 1#16 0#16) (turning 2 1 1) = none ∧
      eventOf 0 (.scan 1#16 0#16) (turning 3 1 1) = some .backward ∧
      acceptedEvent 0 (.scan 1#16 0#16) (turning 3 1 1) = some .backward ∧
      ((turning 3 1 1).lane 0).idle + 1 = v1.T ∧ ((turning 2 1 1).lane 0).latch ≠ latchOf .backward) ∧
    eventOf 0 (.scan 1#16 1#16) s = some .backward ∧ exec (.scan 1#16 1#16) s = .next t ∧
    everyOp (fun o x => eventOf 0 o x = none) [.scan 1#16 1#16, .scan 1#16 1#16] t ∧
    runTrace [.scan 1#16 1#16, .scan 1#16 1#16] t = .next u ∧ eventOf 0 (.scan 0#16 1#16) u = some .forward ∧
    s.cfg.T ≤ s.cfg.C + 1 ∧ (cfg 3 9 6).C + 1 < (cfg 3 9 6).T := by
  refine ⟨?_, ?_, exec_after _ _, ⟨?_, ?_, trivial⟩, runTrace_after _ _, ?_, ?_, ?_⟩ <;> decide +kernel

/-- V-S6. -/
theorem witness_ChatterNeverMovesTheAccumulators :
    let s := State.resetWith v1
    2 ≤ s.cfg.T ∧ (s.lane 0).idle = 0 ∧ (s.lane 0).latch ≠ latchOf .forward ∧
    (s.lane 0).pa = (0#16).getLsbD 0 ∧ (s.lane 0).pb = (0#16).getLsbD 0 ∧
    classOf (tableRead s.cfg (laneKey (s.lane 0) ((1#16).getLsbD 0) ((0#16).getLsbD 0))) = .directional .forward ∧
    classOf (tableRead s.cfg (laneKey { s.lane 0 with pa := (1#16).getLsbD 0, pb := (0#16).getLsbD 0 }
      ((0#16).getLsbD 0) ((0#16).getLsbD 0))) = .directional .backward := by decide +kernel

theorem witness_FirstScanAfterResetComparesWithZero : v1.qtable = defaultQTable := rfl

/-- A trace with an accepted step, and one with no SCAN. -/
theorem witness_TakeStepsReturnsAndClears :
    ((turning 0 0 1).lane 0).acc = 0#8 ∧
    (∀ o ∈ [Instr.scan 0#16 1#16, .takeSteps 1, .takeSum 0], takesAcc o ≠ some 0) ∧
    runTrace [.scan 0#16 1#16, .takeSteps 1, .takeSum 0] (turning 0 0 1) =
      .next (after (.takeSum 0) (after (.takeSteps 1) (after (.scan 0#16 1#16) (turning 0 0 1)))) ∧
    scansIn [.takeSteps 1, .takeSum 0] = 0 ∧ (after (.takeSteps 0) (turning 0 0 1)).rsp = some 0x000000#24 := by
  refine ⟨by decide +kernel, by decide +kernel, runTrace_after _ _, rfl, by decide +kernel⟩

theorem witness_TakeSumReturnsAndClears :
    ((turning 3 1 0).lane 0).sum = 0#16 ∧
    (∀ o ∈ [Instr.scan 0#16 1#16, .takeSteps 0, .takeSum 1], takesSum o ≠ some 0) ∧
    runTrace [.scan 0#16 1#16, .takeSteps 0, .takeSum 1] (turning 3 1 0) =
      .next (after (.takeSum 1) (after (.takeSteps 0) (after (.scan 0#16 1#16) (turning 3 1 0)))) ∧
    (after (.takeSum 0) (turning 3 1 0)).rsp = some 0x000000#24 := by
  refine ⟨by decide +kernel, by decide +kernel, runTrace_after _ _, by decide +kernel⟩

theorem witness_TakeBothIsTheTwoTakes :
    scansIn [.swupd 1#16, .takeBoth 1, .rdUp 0#4] = 0 ∧
    (∀ o ∈ [Instr.swupd 1#16, .takeBoth 1, .rdUp 0#4], takesAcc o ≠ some 0 ∧ takesSum o ≠ some 0) := by decide +kernel

/-- A trace with an accepted step and a take, along which nothing wraps. -/
theorem witness_StepsAreConserved :
    NoAccWrap 0 [.scan 0#16 1#16, .takeSteps 0] (turning 0 1 1) ∧
    runTrace [.scan 0#16 1#16, .takeSteps 0] (turning 0 1 1) =
      .next (after (.takeSteps 0) (after (.scan 0#16 1#16) (turning 0 1 1))) :=
  ⟨⟨by decide +kernel, by decide +kernel, trivial⟩, rfl⟩

theorem witness_CyclesAreConserved :
    NoSumWrap 0 [.scan 0#16 1#16, .takeSum 0] (turning 0 1 1) ∧
    runTrace [.scan 0#16 1#16, .takeSum 0] (turning 0 1 1) =
      .next (after (.takeSum 0) (after (.scan 0#16 1#16) (turning 0 1 1))) :=
  ⟨⟨by decide +kernel, by decide +kernel, trivial⟩, rfl⟩

theorem witness_FewerThan128ScansCannotWrapSteps :
    ((turning 0 0 1).lane 0).acc = 0#8 ∧ scansIn (List.replicate 127 (.scan 0#16 1#16)) < 128 := by decide +kernel

theorem witness_SumCannotWrapWithinItsBound :
    Inv (turning 6 1 0) ∧ ((turning 6 1 0).lane 0).sum = 0#16 ∧
    scansIn [.scan 0#16 1#16, .takeSum 0] ≤ 65535 - (turning 6 1 0).cfg.C :=
  ⟨inv_of_lane _ (by decide) 0, by decide +kernel, by decide⟩

/-- P3, run A. -/
theorem witness_TornPairMissesTheStep :
    let s := withLane v1 0 (lane false true 0 .fwd 2 2)
    let s1 := after (.takeSteps 0) s
    let s2 := after (.scan 0#16 0#16) s1
    let s3 := after (.takeSum 0) s2
    let s4 := after (.takeSteps 0) s3
    exec (.takeSteps 0) s = .next s1 ∧ acceptedEvent 0 (.scan 0#16 0#16) s1 = some .forward ∧
    exec (.scan 0#16 0#16) s1 = .next s2 ∧ exec (.takeSum 0) s2 = .next s3 ∧ exec (.takeSteps 0) s3 = .next s4 ∧
    exec (.takeSum 0) s4 = .next (after (.takeSum 0) s4) :=
  ⟨rfl, by decide +kernel, exec_after _ _, exec_after _ _, exec_after _ _, exec_after _ _⟩

/-- A buffer slot, a buffer of one slot, an unchanged stable state, and a trace from reset. -/
theorem witness_SwupdPushesAndFlagsEdges :
    v1.wf = true ∧ runTrace [.swupd 1#16] (State.resetWith v1) = .next (after (.swupd 1#16) (State.resetWith v1)) ∧
    (State.resetWith v1).widx < (State.resetWith v1).buf.length ∧ (cfg 1 4 6).debounceDepth = 1 ∧
    (after (.swupd 0#16) (State.resetWith v1)).stable = (State.resetWith v1).stable :=
  ⟨rfl, rfl, by decide +kernel, rfl, by decide +kernel⟩

theorem witness_StableIsTheOrOfTheRecentSamples :
    v1.wf = true ∧ runTrace [.swupd 1#16, .rdUp 0#4] (State.resetWith v1) =
      .next (after (.rdUp 0#4) (after (.swupd 1#16) (State.resetWith v1))) := ⟨rfl, rfl⟩

theorem witness_BufferHoldsTheRecentSamples :
    v1.wf = true ∧ runTrace [.swupd 1#16] (State.resetWith v1) = .next (after (.swupd 1#16) (State.resetWith v1)) :=
  ⟨rfl, rfl⟩

theorem witness_PressIsImmediate :
    Inv (State.resetWith v1) ∧ (State.resetWith v1).stable.getLsbD 15 = false ∧ (0x8000#16).getLsbD 15 = true :=
  ⟨inv_of_reset _ (by decide), by decide, by decide⟩

/-- One clear sample after the set one, and the full depth of three. -/
theorem witness_ReleaseTakesExactlyTheDepth :
    Inv (State.resetWith v1) ∧ (0x8000#16).getLsbD 15 = true ∧
    (∀ x ∈ [0#16], x.getLsbD 15 = false) ∧ (∀ x ∈ [0#16, 1#16, 0#16], x.getLsbD 15 = false) ∧ [0#16] ≠ [] ∧
    [0#16, 1#16, 0#16].length = (State.resetWith v1).cfg.debounceDepth ∧
    runTrace (swupds [0x8000#16, 0#16]) (State.resetWith v1) =
      .next (after (.swupd 0#16) (after (.swupd 0x8000#16) (State.resetWith v1))) :=
  ⟨inv_of_reset _ (by decide), by decide, by simp, by simp, by decide, by decide, by
    simp only [swupds, runTrace_after, List.map_cons, List.map_nil, List.foldl_cons, List.foldl_nil]⟩

theorem witness_EdgesLastOneUpdate :
    exec (.swupd 4#16) (State.resetWith v1) = .next (after (.swupd 4#16) (State.resetWith v1)) ∧
    exec (.swupd 4#16) (after (.swupd 4#16) (State.resetWith v1)) =
      .next (after (.swupd 4#16) (after (.swupd 4#16) (State.resetWith v1))) := ⟨exec_after _ _, exec_after _ _⟩

theorem witness_StatusMasksStayUntilTheNextUpdate :
    exec (.swupd 4#16) taken = .next (after (.swupd 4#16) taken) ∧ samplesOf [.takeSteps 5, .rdUp 0#4] = [] ∧
    runTrace [.takeSteps 5, .rdUp 0#4] (after (.swupd 4#16) taken) =
      .next (after (.rdUp 0#4) (after (.takeSteps 5) (after (.swupd 4#16) taken))) :=
  ⟨exec_after _ _, rfl, rfl⟩

/-- A tick that flags a press and one that flags a release, each followed by both reads (P2's order). -/
theorem witness_NoEdgeIsLostUnderConsumerTick :
    let one := cfg 1 4 6
    let u := after (.swupd 1#16) (State.resetWith one)
    let w := after (.swupd 0#16) (after (.rdUp 0#4) (after (.rdDown 0#4) u))
    (State.resetWith one).cfg.swStrobeSource = .consumerTick ∧
    keepsSchedule .consumerTick
      ([.swupd 1#16, .rdDown 0#4, .rdUp 0#4] ++ .swupd 0#16 :: [.rdDown 0#4, .rdUp 0#4]) = true ∧
    keepsSchedule .consumerTick ([] ++ .swupd 1#16 :: [.rdDown 0#4, .rdUp 0#4]) = true ∧
    runTrace [] (State.resetWith one) = .next (State.resetWith one) ∧
    u.down.getLsbD 0 = true ∧ w.up.getLsbD 0 = true := by
  refine ⟨rfl, ?_, ?_, rfl, ?_, ?_⟩ <;> decide +kernel

theorem witness_StatusReadsArePure :
    samplesOf [.scan 0xFFFF#16 0xFFFF#16] = [] ∧
    runTrace [.scan 0xFFFF#16 0xFFFF#16] (State.resetWith v1) =
      .next (after (.scan 0xFFFF#16 0xFFFF#16) (State.resetWith v1)) := ⟨rfl, rfl⟩

theorem witness_IgnoredFieldsAreKept : 8 ≤ (15 : Fin 16).val ∧ 8 ≤ (8 : Fin 16).val := by decide

/-- Two states that differ in the debounce half, and two that differ in a lane. -/
theorem witness_HalvesShareNoState :
    usesQuadrature (.takeBoth 5) = true ∧ flagged.cfg = (State.resetWith v1).cfg ∧
    (∀ i : LaneId, (State.resetWith v1).lane i = flagged.lane i) ∧
    exec (.takeBoth 5) flagged = .next (after (.takeBoth 5) flagged) ∧
    usesDebounce (.swupd 1#16) = true ∧ taken.cfg = (State.resetWith v1).cfg ∧
    (State.resetWith v1).buf = taken.buf ∧ (State.resetWith v1).widx = taken.widx ∧
    (State.resetWith v1).stable = taken.stable ∧ (State.resetWith v1).up = taken.up ∧
    (State.resetWith v1).down = taken.down ∧ exec (.swupd 1#16) taken = .next (after (.swupd 1#16) taken) :=
  ⟨rfl, rfl, fun _ => rfl, exec_after _ _, rfl, rfl, rfl, rfl, rfl, rfl, rfl, exec_after _ _⟩

theorem witness_ReservedWordsDoNothing : (0x0F#8).toNat < 0x10 ∧ 0x70 ≤ (0x70#8).toNat := by decide

end Sys2Proof.Tests
end

section
/-!
The direction latch (10_state.md R23): what each operation does to it, and the obligation about it.
-/

namespace Sys2Proof.Machine

/-- The lane write of a take: new elements with the old latch leave the latch of every lane (R150, R151, R152). -/
theorem latch_setLane (s : State) (j id : LaneId) {l : Lane} (h : l.latch = (s.lane j).latch) :
    ((s.setLane j l).lane id).latch = (s.lane id).latch := by
  by_cases e : id = j
  · subst e; rw [State.lane_setLane_self, h]
  · rw [State.lane_setLane_ne _ _ _ _ e]

/-- An operation that is no event of a lane leaves the lane's latch. -/
theorem latch_of_no_event {i : Instr} {s t : State} {id : LaneId} (hx : exec i s = .next t)
    (h : eventOf id i s = none) : (t.lane id).latch = (s.lane id).latch := by
  rcases exec_next_cases hx with
    ⟨a, b, rfl, -⟩ | ⟨sw, -, rfl⟩ | ⟨j, -, rfl⟩ | ⟨j, -, rfl⟩ | ⟨j, -, rfl⟩ | ⟨v, -, -, -, rfl⟩
  · rw [lane_after_quiet_scan h hx]
  · rw [updateStable_lane, pushSample_lane]
  · exact latch_setLane s j id rfl
  · exact latch_setLane s j id rfl
  · exact latch_setLane s j id rfl
  · rw [State.respond_lane]

/-- No operation writes NONE: a latch that is NONE after an operation was NONE before it. -/
theorem latch_none_of_latch_none {i : Instr} {s t : State} {id : LaneId} (hx : exec i s = .next t)
    (h : (t.lane id).latch = .none) : (s.lane id).latch = .none := by
  cases he : eventOf id i s with
  | none => rw [← latch_of_no_event hx he, h]
  | some d =>
    have hd : (t.lane id).latch = latchOf d := (lane_after_event he hx).left
    exact absurd (hd.symm.trans h) (latchOf_ne_none d)

/-- Which result matches which latch value, written out (R23). -/
theorem latchMatches_iff_cases (d : Dir) (x : Latch) :
    latchMatches d x = true ↔ (d = .forward ∧ x = .fwd) ∨ (d = .backward ∧ x = .bwd) := by
  rw [latchMatches_iff]
  cases d with
  | forward => simp [latchOf]
  | backward => simp [latchOf]

/-- The latch holds one of its three values. -/
theorem latch_cases (x : Latch) : x = .none ∨ x = .fwd ∨ x = .bwd := by
  cases x with
  | none => exact .inl rfl
  | fwd => exact .inr (.inl rfl)
  | bwd => exact .inr (.inr rfl)

/-- Settles O31: an event of the lane writes its direction whatever the filter answers, and every other operation keeps
the latch, so none writes NONE. -/
theorem latchIsWrittenByEventsAlone : Obligations.LatchIsWrittenByEventsAlone := by
  unfold Obligations.LatchIsWrittenByEventsAlone
  refine ⟨fun c id => ?reset, latch_cases, ⟨rfl, rfl, rfl⟩, latchMatches_iff_cases, fun i s t id hx => ?written⟩
  case reset => rw [State.resetWith_lane]; rfl
  case written =>
    have hevent (d : Dir) (he : eventOf id i s = some d) : (t.lane id).latch = latchOf d :=
      (lane_after_event he hx).left
    exact ⟨hevent .forward, hevent .backward, latch_of_no_event hx, latch_none_of_latch_none hx⟩

end Sys2Proof.Machine
end

section
/-!
The fields of operation words as numbers and bits (30_encoding.md R73, R78, R82), which operation each command word
decodes to (R84, R88), and the obligations about encodings.
-/

namespace Sys2Proof

/-! ### Fields as numbers -/

/-- Two fields side by side as a number: the left one counts the units above the right one. -/
theorem append_toNat {m n : Nat} (x : BitVec m) (y : BitVec n) : (x ++ y).toNat = 2 ^ n * x.toNat + y.toNat := by
  rw [BitVec.toNat_append, Nat.mul_comm, ← Nat.shiftLeft_eq, Nat.shiftLeft_add_eq_or_of_lt y.isLt]

/-- A command word as a number (R82). -/
theorem commandWord_toNat (op x : BitVec 4) : (commandWord op x).toNat = 16 * op.toNat + x.toNat := append_toNat op x

/-- The byte `0x10 * op + x` is the command word of these two fields. -/
theorem ofNat_eq_commandWord (op x : BitVec 4) : BitVec.ofNat 8 (16 * op.toNat + x.toNat) = commandWord op x := by
  rw [← commandWord_toNat, BitVec.ofNat_toNat, BitVec.setWidth_eq]

/-- The operation code counts the sixteens of a command word (R82). -/
theorem toNat_eq_fields (w : BitVec 8) : w.toNat = 16 * (opField w).toNat + (idField w).toNat := by
  rw [← commandWord_toNat, commandWord_fields]

/-- Bits 7:4 of a command word are bits 3:0 of its operation code (R82). -/
theorem getElem_commandWord_of_le (op x : BitVec 4) {k : Nat} (h : 4 ≤ k) (hk : k < 8) :
    (commandWord op x)[k] = op.getLsbD (k - 4) := by
  have happend : (commandWord op x).getLsbD k = if k < 4 then x.getLsbD k else op.getLsbD (k - 4) :=
    BitVec.getLsbD_append
  rw [← BitVec.getLsbD_eq_getElem hk, happend, if_neg (Nat.not_lt.mpr h)]

/-- A scan word is its two masks (R78). -/
theorem scanWord_fields (w : BitVec 32) : w.extractLsb' 16 16 ++ w.extractLsb' 0 16 = w :=
  have hjoin : 16 = 0 + 16 := rfl
  (BitVec.extractLsb'_append_extractLsb'_eq_extractLsb' hjoin).trans BitVec.extractLsb'_eq_self

/-! ### The operation of each operation code -/

section decode
variable (x : BitVec 4)

@[simp] theorem decode_commandWord_reservedOp0 : decode (.command (commandWord 0x0#4 x)) = .reservedOp0 x := by
  simp [decode, decodeCommand]

@[simp] theorem decode_commandWord_takeSteps : decode (.command (commandWord 0x1#4 x)) = .takeSteps (laneOfField x) := by
  simp [decode, decodeCommand]

@[simp] theorem decode_commandWord_takeSum : decode (.command (commandWord 0x2#4 x)) = .takeSum (laneOfField x) := by
  simp [decode, decodeCommand]

@[simp] theorem decode_commandWord_takeBoth : decode (.command (commandWord 0x3#4 x)) = .takeBoth (laneOfField x) := by
  simp [decode, decodeCommand]

@[simp] theorem decode_commandWord_rdStable : decode (.command (commandWord 0x4#4 x)) = .rdStable x := by
  simp [decode, decodeCommand]

@[simp] theorem decode_commandWord_rdUp : decode (.command (commandWord 0x5#4 x)) = .rdUp x := by
  simp [decode, decodeCommand]

@[simp] theorem decode_commandWord_rdDown : decode (.command (commandWord 0x6#4 x)) = .rdDown x := by
  simp [decode, decodeCommand]

@[simp] theorem decode_commandWord_reservedOp7 : decode (.command (commandWord 0x7#4 x)) = .reservedOp7 x := by
  simp [decode, decodeCommand]

theorem decode_commandWord_reservedOp8F {op : BitVec 4} (h : 8 ≤ op.toNat) :
    decode (.command (commandWord op x)) = .reservedOp8F op x := by
  have hne {k : BitVec 4} (hk : k.toNat < 8) : op ≠ k := fun e => by rw [e] at h; omega
  simp [decode, decodeCommand, hne]

end decode

/-- The byte `base + x`, with the operation code alone in `base`, decodes as the command word of the two fields does. -/
theorem decode_command_byte {base : Nat} {op : BitVec 4} {x : LaneId} {i : Instr} (hbase : base = 16 * op.toNat)
    (h : decode (.command (commandWord op (fieldOfLane x))) = i) :
    decode (.command (BitVec.ofNat 8 (base + x.val))) = i := by
  have hbyte : BitVec.ofNat 8 (base + x.val) = commandWord op (fieldOfLane x) := by
    rw [hbase]; exact ofNat_eq_commandWord op (fieldOfLane x)
  rw [hbyte, h]

/-- A four-bit operation code is one of the eight named ones or lies in 0x8..0xF (R84). -/
theorem opCode_cases (op : BitVec 4) :
    op = 0x0#4 ∨ op = 0x1#4 ∨ op = 0x2#4 ∨ op = 0x3#4 ∨ op = 0x4#4 ∨ op = 0x5#4 ∨ op = 0x6#4 ∨ op = 0x7#4 ∨
      8 ≤ op.toNat := by
  revert op; decide

/-- Case split of a command word by the rows of the command map (R84, R88). -/
theorem commandWord_cases {P : BitVec 8 → Prop} (reservedOp0 : ∀ x, P (commandWord 0x0#4 x))
    (takeSteps : ∀ x, P (commandWord 0x1#4 x)) (takeSum : ∀ x, P (commandWord 0x2#4 x))
    (takeBoth : ∀ x, P (commandWord 0x3#4 x)) (rdStable : ∀ x, P (commandWord 0x4#4 x))
    (rdUp : ∀ x, P (commandWord 0x5#4 x)) (rdDown : ∀ x, P (commandWord 0x6#4 x))
    (reservedOp7 : ∀ x, P (commandWord 0x7#4 x)) (reservedOp8F : ∀ op x, 8 ≤ op.toNat → P (commandWord op x))
    (w : BitVec 8) : P w := by
  rw [← commandWord_fields w]
  rcases opCode_cases (opField w) with h | h | h | h | h | h | h | h | h
  · rw [h]; exact reservedOp0 _
  · rw [h]; exact takeSteps _
  · rw [h]; exact takeSum _
  · rw [h]; exact takeBoth _
  · rw [h]; exact rdStable _
  · rw [h]; exact rdUp _
  · rw [h]; exact rdDown _
  · rw [h]; exact reservedOp7 _
  · exact reservedOp8F _ _ h

end Sys2Proof

namespace Sys2Proof.Machine

/-- A command word decodes to a CONSUMER command: neither a SCAN nor a SWUPD has one (R84). -/
theorem isCommand_decode_command (w : BitVec 8) : isCommand (decode (.command w)) = true := by
  cases w using commandWord_cases with
  | reservedOp8F op x h => rw [decode_commandWord_reservedOp8F x h]; rfl
  | _ x => simp [isCommand]

/-- A command word is reserved exactly when its operation code is 0x0 or 0x7 to 0xF (R88). -/
theorem isReserved_decode_command (w : BitVec 8) :
    isReserved (decode (.command w)) = true ↔ (opField w).toNat = 0 ∨ 7 ≤ (opField w).toNat := by
  cases w using commandWord_cases with
  | reservedOp8F op x h =>
    rw [decode_commandWord_reservedOp8F x h, opField_commandWord]
    simp only [isReserved, true_iff]
    omega
  | _ x => simp [isReserved]

/-- The words 0x10 to 0x3F are those with the operation code of a take (R84). -/
theorem take_commandWord {w : BitVec 8} (hlo : 0x10 ≤ w.toNat) (hhi : w.toNat < 0x40) :
    ∃ x, w = commandWord 0x1#4 x ∨ w = commandWord 0x2#4 x ∨ w = commandWord 0x3#4 x := by
  have hop : opField w = 0x1#4 ∨ opField w = 0x2#4 ∨ opField w = 0x3#4 := by
    have hw := toNat_eq_fields w
    have hx := (idField w).isLt
    simp only [← BitVec.toNat_inj, BitVec.toNat_ofNat]
    omega
  refine ⟨idField w, ?_⟩
  rcases hop with h | h | h <;> simp [← h]

/-- A chain that ends with a low strobe is the chain without it. -/
@[simp] theorem andThen_strobe_none (o : Host.Outcome State Fault Refusal) : andThen o (strobe none) = o := by
  cases o <;> rfl

/-- A clock in which one strobe alone is high runs the operation that strobe's word stands for (R71). -/
theorem clock_pinsOf (x : OpWord) (s : State) : clock (pinsOf x) s = exec (decode x) s := by
  cases x with
  | scan w => simp [pinsOf, Pins.quiet, clock_of_not_rst, strobes]
  | switch w => simp [pinsOf, Pins.quiet, clock_of_not_rst, strobes]
  | command w => simp [pinsOf, Pins.quiet, clock_of_not_rst, strobes]

/-- Settles O3: the fields of a command word select its operation, and a port's own strobe selects SCAN or SWUPD. -/
theorem commandWordsHaveTheirOperationCodes : Obligations.CommandWordsHaveTheirOperationCodes := by
  unfold Obligations.CommandWordsHaveTheirOperationCodes
  refine ⟨fun id => ?takes, fun x => ?reads, fun w => ?reserved, fun w hlo hhi => ?takeBits, isCommand_decode_command,
    fun w => ⟨_, _, rfl, clock_pinsOf (.scan w)⟩, fun w => ⟨rfl, clock_pinsOf (.switch w)⟩⟩
  case takes =>
    exact ⟨decode_command_byte rfl (decode_commandWord_takeSteps _),
      decode_command_byte rfl (decode_commandWord_takeSum _),
      decode_command_byte rfl (decode_commandWord_takeBoth _)⟩
  case reads =>
    exact ⟨⟨_, decode_command_byte rfl (decode_commandWord_rdStable _), fun _ => rfl⟩,
      ⟨_, decode_command_byte rfl (decode_commandWord_rdUp _), fun _ => rfl⟩,
      ⟨_, decode_command_byte rfl (decode_commandWord_rdDown _), fun _ => rfl⟩⟩
  case reserved =>
    rw [isReserved_decode_command, toNat_eq_fields w]
    have hx := (idField w).isLt
    omega
  case takeBits =>
    obtain ⟨x, rfl | rfl | rfl⟩ := take_commandWord hlo hhi
    · simp [getElem_commandWord_of_le, takesAcc, takesSum]
    · simp [getElem_commandWord_of_le, takesAcc, takesSum]
    · simp [getElem_commandWord_of_le, takesAcc, takesSum]

/-- Settles O4: the two halves of a scan word make it up again, as numbers and as bits. -/
theorem scanWordIsTheTwoMasks : Obligations.ScanWordIsTheTwoMasks := by
  unfold Obligations.ScanWordIsTheTwoMasks
  refine fun w => ⟨w.extractLsb' 16 16, w.extractLsb' 0 16, rfl, ?number, fun i => ?bits⟩
  case number => rw [← append_toNat, scanWord_fields]
  case bits => simp [i.isLt]

/-- Settles O6: the key is four one-bit fields side by side, each worth twice the next. -/
theorem keyIsPreviousThenCurrent : Obligations.KeyIsPreviousThenCurrent := by
  unfold Obligations.KeyIsPreviousThenCurrent
  intro l ca cb
  simp only [laneKey, append_toNat, BitVec.toNat_ofBool]
  omega

/-- The value of a table entry is one of five (R74). -/
theorem entryValue_mem (q : QEntry) : entryValue q ∈ [0, 1, -1, 127, -127] := by
  cases q <;> decide

/-- The ambiguous entries are the two sentinels (R74). -/
theorem classOf_eq_ambiguous_iff (q : QEntry) : classOf q = .ambiguous ↔ entryValue q = 127 ∨ entryValue q = -127 := by
  cases q <;> decide

/-- Settles O7: the rows of the value table as they are written, and the two facts about every entry. -/
theorem tableEntriesHaveFiveValues : Obligations.TableEntriesHaveFiveValues := by
  unfold Obligations.TableEntriesHaveFiveValues
  exact ⟨⟨rfl, rfl, rfl⟩, ⟨rfl, rfl, rfl⟩, ⟨rfl, rfl, rfl⟩, ⟨rfl, rfl, rfl⟩, ⟨rfl, rfl, rfl⟩,
    fun c key => entryValue_mem (tableRead c key), classOf_eq_ambiguous_iff⟩

end Sys2Proof.Machine
end

section
/-!
The debounce buffer over a trace (10_state.md R27, 40_switch_debounce.md R101 to R108): read from the slot written last
back to the slot at `WIDX`, it is the window of the most recent samples; and the obligations about SWUPD and the reads.
-/

namespace Sys2Proof.Machine

/-! ### What an operation does to the debounce half, alone and along a trace -/

theorem sameDebounce_refl (s : State) : SameDebounce s s := ⟨rfl, rfl, rfl, rfl, rfl⟩

theorem sameDebounce_trans {s t u : State} (h : SameDebounce s t) (h' : SameDebounce t u) : SameDebounce s u := by
  obtain ⟨hbuf, hwidx, hstable, hup, hdown⟩ := h'
  rw [SameDebounce, hbuf, hwidx, hstable, hup, hdown]
  exact h

/-- An operation is a SWUPD, or it brings no sample and leaves the debounce half. -/
theorem exec_debounce_cases {i : Instr} {s t : State} (h : exec i s = .next t) :
    (∃ sw, i = .swupd sw ∧ t = updateStable (pushSample sw s)) ∨ (samplesOf [i] = [] ∧ SameDebounce s t) := by
  rcases exec_next_cases h with
    ⟨a, b, rfl, rfl⟩ | ⟨sw, rfl, rfl⟩ | ⟨id, rfl, rfl⟩ | ⟨id, rfl, rfl⟩ | ⟨id, rfl, rfl⟩ | ⟨v, hc, -, -, rfl⟩
  · exact .inr ⟨rfl, sameDebounce_refl s⟩
  · exact .inl ⟨sw, rfl, rfl⟩
  · exact .inr ⟨rfl, sameDebounce_refl s⟩
  · exact .inr ⟨rfl, sameDebounce_refl s⟩
  · exact .inr ⟨rfl, sameDebounce_refl s⟩
  · refine .inr ⟨?_, sameDebounce_refl s⟩
    cases i with
    | swupd sw => exact absurd hc Bool.false_ne_true
    | _ => rfl

/-- What a SWUPD carries from the samples before it to those with its own, and what an unchanged debounce half keeps,
holds at the end of a trace with the trace's samples put in front, the last one first. -/
theorem runTrace_samples_induction {P : List Mask → State → Prop}
    (swupd : ∀ sw recent s, P recent s → P (sw :: recent) (updateStable (pushSample sw s)))
    (other : ∀ recent s t, t.cfg = s.cfg → SameDebounce s t → P recent s → P recent t)
    {ops : List Instr} {recent : List Mask} {s t : State} (hrun : runTrace ops s = .next t) (h : P recent s) :
    P ((samplesOf ops).reverse ++ recent) t := by
  induction ops generalizing recent s with
  | nil => rw [← next_inj hrun]; exact h
  | cons i is ih =>
    obtain ⟨u, hx, hrest⟩ := andThen_eq_next.mp hrun
    rcases exec_debounce_cases hx with ⟨sw, rfl, rfl⟩ | ⟨hnone, hsame⟩
    · simpa [samplesOf] using ih hrest (swupd sw recent s h)
    · have hsamples : samplesOf (i :: is) = samplesOf is := by
        rw [← List.singleton_append, samplesOf_append, hnone, List.nil_append]
      rw [hsamples]
      exact ih hrest (other recent s u (exec_cfg hx) hsame h)

/-- A trace without a SWUPD leaves the debounce half. -/
theorem sameDebounce_of_no_samples {ops : List Instr} {s t : State} (hnone : samplesOf ops = [])
    (hrun : runTrace ops s = .next t) : SameDebounce s t := by
  have h := runTrace_samples_induction (P := fun recent u => recent = [] → SameDebounce s u) (recent := [])
    (fun _ _ _ _ e => absurd e (List.cons_ne_nil _ _))
    (fun _ _ _ _ hsame h e => sameDebounce_trans (h e) hsame) hrun (fun _ => sameDebounce_refl s)
  exact h (by rw [hnone]; rfl)

/-! ### The window of recent samples -/

/-- The `n` most recent samples, the newest first, where zero words stand for the samples before the first (R102). -/
def recentWindow (n : Nat) (recent : List Mask) : List Mask := (recent ++ List.replicate n 0#16).take n

theorem recentWindow_eq (n : Nat) (recent : List Mask) :
    recentWindow n recent = recent.take n ++ List.replicate (n - recent.length) 0#16 := by
  rw [recentWindow, List.take_append, List.take_replicate, Nat.min_eq_left (Nat.sub_le _ _)]

@[simp] theorem length_recentWindow (n : Nat) (recent : List Mask) : (recentWindow n recent).length = n := by
  simp [recentWindow]

@[simp] theorem recentWindow_nil (n : Nat) : recentWindow n [] = List.replicate n 0#16 := by simp [recentWindow]

/-- A new sample pushes the oldest one out of the window and keeps the others. -/
theorem recentWindow_push {n : Nat} (hn : 0 < n) (recent : List Mask) :
    ∃ kept, recentWindow n recent = kept ++ [recent.getD (n - 1) 0#16] ∧
      ∀ sw, recentWindow n (sw :: recent) = sw :: kept := by
  obtain ⟨m, rfl⟩ : ∃ m, n = m + 1 := ⟨n - 1, by omega⟩
  refine ⟨(recent ++ List.replicate (m + 1) 0#16).take m, ?oldest, fun sw => rfl⟩
  have hlen : m < (recent ++ List.replicate (m + 1) 0#16).length := by
    rw [List.length_append, List.length_replicate]; omega
  have hget : (recent ++ List.replicate (m + 1) 0#16)[m] = recent.getD m 0#16 := by
    by_cases hm : m < recent.length
    · simp [hm]
    · simp [hm, List.getElem_append_right (Nat.le_of_not_lt hm)]
  rw [recentWindow, List.take_succ_eq_append_getElem hlen, hget, Nat.add_sub_cancel]

/-! ### The buffer by the age of its samples -/

/-- The slots of the buffer from the one written last back to the one at `WIDX`, which is written next (R27, R28). -/
def State.slotsByAge (s : State) : List Mask := (s.buf.rotate s.widx).reverse

/-- A slot that exists reads as its word (R12). -/
theorem State.bufRead_of_lt {s : State} {k : Nat} (h : k < s.buf.length) : s.bufRead k = s.buf[k] :=
  List.getD_eq_getElem _ _ h

theorem State.slotsByAge_perm (s : State) : s.slotsByAge.Perm s.buf :=
  (List.reverse_perm _).trans (List.rotate_perm _ _)

/-- Pushing a sample replaces the word at `WIDX`, the last one by age, and makes the sample the first (R101). -/
theorem slotsByAge_pushSample {s : State} (hfull : s.buf.length = s.cfg.debounceDepth)
    (hslot : s.widx < s.cfg.debounceDepth) :
    ∃ kept, s.slotsByAge = kept ++ [s.bufRead s.widx] ∧ ∀ sw, (pushSample sw s).slotsByAge = sw :: kept := by
  have hw : s.widx < s.buf.length := hfull ▸ hslot
  have hpre : (s.buf.take s.widx).length = s.widx := List.length_take_of_le hw.le
  refine ⟨(s.buf.drop (s.widx + 1) ++ s.buf.take s.widx).reverse, ?before, fun sw => ?after⟩
  case before =>
    have hrot : s.buf.rotate s.widx = s.bufRead s.widx :: (s.buf.drop (s.widx + 1) ++ s.buf.take s.widx) := by
      rw [List.rotate_eq_drop_append_take hw.le, List.drop_eq_getElem_cons hw, State.bufRead_of_lt hw, List.cons_append]
    rw [State.slotsByAge, hrot, List.reverse_cons]
  case after =>
    have hset : s.buf.set s.widx sw = (s.buf.take s.widx ++ [sw]) ++ s.buf.drop (s.widx + 1) := by
      rw [List.set_eq_take_append_cons_drop, if_pos hw, List.append_assoc, List.singleton_append]
    have hnew : (s.buf.take s.widx ++ [sw]).length = s.widx + 1 := by rw [List.length_append, hpre]; rfl
    have hrot : (s.buf.set s.widx sw).rotate ((s.widx + 1) % s.cfg.debounceDepth) =
        s.buf.drop (s.widx + 1) ++ s.buf.take s.widx ++ [sw] := by
      rw [← hfull, ← List.length_set (as := s.buf) (i := s.widx) (a := sw), List.rotate_mod, hset, ← hnew,
        List.rotate_append_length_eq, hnew, List.append_assoc]
    rw [State.slotsByAge, pushSample_buf, pushSample_widx, hrot, List.reverse_append]
    rfl

/-! ### The invariant of a trace from reset -/

/-- A block with the parameters `c` in which `recent` are the samples so far, the newest first: the buffer by age is their
window, and `STABLE` is the OR of the slots. -/
structure TracksSamples (c : Config) (recent : List Mask) (s : State) : Prop where
  cfg_eq : s.cfg = c
  widx_slot : s.widx < c.debounceDepth
  slots_eq : s.slotsByAge = recentWindow c.debounceDepth recent
  stable_or : s.stable = orAll s.buf

namespace TracksSamples
variable {c : Config} {recent : List Mask} {s : State}

/-- The buffer is the window in some order (R27). -/
theorem buf_perm (h : TracksSamples c recent s) : s.buf.Perm (recentWindow c.debounceDepth recent) :=
  h.slots_eq ▸ s.slotsByAge_perm.symm

theorem buf_full (h : TracksSamples c recent s) : s.buf.length = c.debounceDepth := by
  rw [h.buf_perm.length_eq, length_recentWindow]

/-- The word at `WIDX` is the oldest sample of the window, and pushing a sample moves the window on by one (R101). -/
theorem window_push (h : TracksSamples c recent s) :
    s.bufRead s.widx = recent.getD (c.debounceDepth - 1) 0#16 ∧
    ∀ sw, (pushSample sw s).slotsByAge = recentWindow c.debounceDepth (sw :: recent) := by
  obtain rfl := h.cfg_eq
  obtain ⟨kept, hold, hpush⟩ := slotsByAge_pushSample h.buf_full h.widx_slot
  obtain ⟨kept', hold', hpush'⟩ := recentWindow_push (Nat.zero_lt_of_lt h.widx_slot) recent
  obtain ⟨hkept, hread⟩ := List.append_inj' (hold.symm.trans (h.slots_eq.trans hold')) rfl
  exact ⟨List.singleton_inj.mp hread, fun sw => by rw [hpush, hpush', hkept]⟩

theorem reset (hc : c.wf = true) : TracksSamples c [] (State.resetWith c) where
  cfg_eq := rfl
  widx_slot := of_decide_eq_true hc
  slots_eq := by simp [State.slotsByAge]
  stable_or := by simp

/-- A SWUPD adds its sample (R101, R102). -/
theorem swupd (h : TracksSamples c recent s) (sw : Mask) :
    TracksSamples c (sw :: recent) (updateStable (pushSample sw s)) where
  cfg_eq := h.cfg_eq
  widx_slot := by
    rw [updateStable_widx, pushSample_widx, h.cfg_eq]
    exact Nat.mod_lt _ (Nat.zero_lt_of_lt h.widx_slot)
  slots_eq := h.window_push.right sw
  stable_or := rfl

/-- An unchanged debounce half tracks the same samples. -/
theorem of_sameDebounce {t : State} (h : TracksSamples c recent s) (hcfg : t.cfg = s.cfg) (hsame : SameDebounce s t) :
    TracksSamples c recent t := by
  obtain ⟨hbuf, hwidx, hstable, -, -⟩ := hsame
  exact ⟨hcfg.trans h.cfg_eq, hwidx ▸ h.widx_slot, by rw [State.slotsByAge, hbuf, hwidx]; exact h.slots_eq,
    by rw [hstable, hbuf]; exact h.stable_or⟩

/-- Every trace from reset tracks its samples. -/
theorem of_runTrace_reset {ops : List Instr} (hc : c.wf = true) (hrun : runTrace ops (State.resetWith c) = .next s) :
    TracksSamples c (samplesOf ops).reverse s := by
  have h := runTrace_samples_induction (P := TracksSamples c) (fun sw _ _ h => h.swupd sw)
    (fun _ _ _ hcfg hsame h => h.of_sameDebounce hcfg hsame) hrun (reset hc)
  rwa [List.append_nil] at h

/-- A bit of `STABLE` is a bit of some slot (R102). -/
theorem stable_iff_slot (h : TracksSamples c recent s) (j : Nat) :
    s.stable.getLsbD j = true ↔ ∃ k, k < c.debounceDepth ∧ (s.bufRead k).getLsbD j = true := by
  rw [h.stable_or, orAll_getLsbD, ← h.buf_full, List.exists_mem_iff_getElem]
  exact exists_congr fun k => (exists_congr fun hk => by rw [State.bufRead_of_lt hk]).trans exists_prop

/-- A bit of `STABLE` is a bit of one of the recent samples; reset's zero words have none (R102). -/
theorem stable_iff_sample (h : TracksSamples c recent s) (j : Nat) :
    s.stable.getLsbD j = true ↔ ∃ x, x ∈ recent.take c.debounceDepth ∧ x.getLsbD j = true := by
  rw [h.stable_or, orAll_getLsbD]
  refine exists_congr fun x => and_congr_left fun hx => ?_
  have hzero : x ∉ List.replicate (c.debounceDepth - recent.length) 0#16 := fun hmem => by
    simp [List.eq_of_mem_replicate hmem] at hx
  rw [h.buf_perm.mem_iff, recentWindow_eq, List.mem_append, or_iff_left hzero]

end TracksSamples

/-! ### The obligations -/

/-- Settles O49: every trace from reset tracks its samples, so the slots are the window of the most recent ones. -/
theorem stableIsTheOrOfTheRecentSamples : Obligations.StableIsTheOrOfTheRecentSamples := by
  unfold Obligations.StableIsTheOrOfTheRecentSamples
  intro c ops t hc hrun
  have h := TracksSamples.of_runTrace_reset hc hrun
  exact ⟨h.stable_iff_slot, h.stable_iff_sample⟩

/-- An unchanged stable state has no release edge (R103). -/
@[simp] theorem upEdges_self (p : Mask) : upEdges p p = 0#16 := by simp [upEdges]

/-- An unchanged stable state has no press edge (R103). -/
@[simp] theorem downEdges_self (p : Mask) : downEdges p p = 0#16 := by simp [downEdges]

/-- Settles O48: the slot, index and edge clauses are SWUPD's own steps; that the slot replaced held the oldest sample is
the last place of the window that a trace from reset tracks. -/
theorem swupdPushesAndFlagsEdges : Obligations.SwupdPushesAndFlagsEdges := by
  unfold Obligations.SwupdPushesAndFlagsEdges
  intro sw s
  refine ⟨_, exec_swupd s sw, fun hslot => ?slots, ?length, rfl, fun hone => ?one, rfl, rfl, rfl, upEdges_eq _ _,
    downEdges_eq _ _, fun hsame => ?unchanged, fun c ops hc hrun => ?oldest, fun _ => rfl, ⟨rfl, rfl⟩, rfl⟩
  case slots =>
    have hread (k : Nat) : (updateStable (pushSample sw s)).bufRead k = if k = s.widx then sw else s.bufRead k :=
      State.bufRead_bufWrite s s.widx sw k hslot
    exact ⟨by rw [hread, if_pos rfl], fun k hk => by rw [hread, if_neg hk]⟩
  case length => rw [updateStable_buf, pushSample_buf, List.length_set]
  case one => rw [updateStable_widx, pushSample_widx, hone, Nat.mod_one]
  case unchanged =>
    rw [updateStable_stable] at hsame
    rw [updateStable_up, updateStable_down, pushSample_stable, hsame]
    exact ⟨upEdges_self _, downEdges_self _⟩
  case oldest => exact (TracksSamples.of_runTrace_reset hc hrun).window_push.left

/-- The response to a read of an all-clear mask (R106, R107, R108). -/
theorem State.respond_zero_mask (s : State) {m : Mask} (h : m = 0#16) :
    s.respond (maskResponse m) = { s with rsp := some 0x000000#24 } := by rw [h]; rfl

/-- Settles O56: a read is a response and no more, and a trace without a SWUPD leaves the masks it answers. -/
theorem statusReadsArePure : Obligations.StatusReadsArePure := by
  unfold Obligations.StatusReadsArePure
  refine ⟨fun x s => ⟨exec_rdStable s x, exec_rdUp s x, exec_rdDown s x⟩, fun ops s u hnone hrun => ?kept,
    fun x c ops s hnone hrun => ?reset⟩
  case kept =>
    obtain ⟨-, -, hmasks⟩ := sameDebounce_of_no_samples hnone hrun
    exact hmasks
  case reset =>
    obtain ⟨-, -, hstable, hup, hdown⟩ := sameDebounce_of_no_samples hnone hrun
    rw [exec_rdStable, exec_rdUp, exec_rdDown]
    exact ⟨by rw [s.respond_zero_mask hstable], by rw [s.respond_zero_mask hup], by rw [s.respond_zero_mask hdown]⟩

end Sys2Proof.Machine
end

section
/-!
SCAN lane by lane (41_quadrature_scan.md R120): the lane step of every lane, the directional results by their value, and
the obligations about the two result paths and the stored samples.
-/

namespace Sys2Proof.Machine

/-- A SCAN answers, and each of its lanes has taken its lane step on its own bits of the two masks (R120). -/
theorem exec_scan_lane (a b : Mask) (s : State) :
    ∃ t, exec (.scan a b) s = .next t ∧
      ∀ i : LaneId, t.lane i = laneStep s.cfg (a.getLsbD i.val) (b.getLsbD i.val) (s.lane i) :=
  ⟨_, exec_scan s a b, fun i => State.lane_mapLanes s _ i⟩

/-- Settles O28: a lane step stores its samples whatever the result, and they lead the next key. -/
theorem scanStoresTheCurrentSamples : Obligations.ScanStoresTheCurrentSamples := by
  unfold Obligations.ScanStoresTheCurrentSamples
  intro a b s
  obtain ⟨t, hx, hlane⟩ := exec_scan_lane a b s
  refine ⟨t, hx, fun i => ?_⟩
  obtain ⟨hpa, hpb⟩ := laneStep_samples s.cfg (a.getLsbD i.val) (b.getLsbD i.val) (s.lane i)
  rw [← hlane] at hpa hpb
  exact ⟨hpa, hpb, fun ca cb => by rw [keyIsPreviousThenCurrent, hpa, hpb]⟩

/-- Settles O26: a lane without an event counts one more idle scan, up to the ceiling, and keeps its other elements. -/
theorem idleOrAmbiguousResultCountsAnIdleScan : Obligations.IdleOrAmbiguousResultCountsAnIdleScan := by
  unfold Obligations.IdleOrAmbiguousResultCountsAnIdleScan
  intro a b s
  obtain ⟨t, hx, hlane⟩ := exec_scan_lane a b s
  refine ⟨t, hx, fun i hclass => ?_⟩
  have hquiet (d : Dir) :
      classOf (laneResult s.cfg (a.getLsbD i.val) (b.getLsbD i.val) (s.lane i)) ≠ .directional d := by
    rcases hclass with h | h
    · exact ne_of_eq_of_ne h nofun
    · exact ne_of_eq_of_ne h nofun
  rw [hlane, laneStep_of_quiet hquiet]
  refine ⟨rfl, fun hceil => ?ceiling, fun hzero => ?zero, rfl, rfl, rfl⟩
  case ceiling => exact Nat.min_eq_right (hceil ▸ Nat.le_succ _)
  case zero => exact Nat.min_eq_zero_iff.mpr (.inr hzero)

/-! ### A directional result by its value -/

/-- An entry is directional exactly when its value is that of a direction (R74, R123). -/
theorem classOf_eq_directional_iff (q : QEntry) (d : Dir) : classOf q = .directional d ↔ entryValue q = dirValue d := by
  cases q <;> cases d <;> decide

/-- The results +1 and -1 are those of the two directions (R123). -/
theorem exists_eq_dirValue {r : Int} (h : r = 1 ∨ r = -1) : ∃ d, r = dirValue d := by
  rcases h with h | h
  · exact ⟨.forward, h⟩
  · exact ⟨.backward, h⟩

/-- The latch value of a direction by its result (R130). -/
theorem latchOf_eq_ite (d : Dir) : latchOf d = if dirValue d = 1 then .fwd else .bwd := by
  cases d with
  | forward => rfl
  | backward => rfl

/-- The latch holds a direction exactly when it matches the direction's result (R23, R128). -/
theorem eq_latchOf_iff (d : Dir) (x : Latch) :
    x = latchOf d ↔ (dirValue d = 1 ∧ x = .fwd) ∨ (dirValue d = -1 ∧ x = .bwd) := by
  cases d with
  | forward => simp [latchOf, dirValue]
  | backward => simp [latchOf, dirValue]

/-- Settles O27: the event's direction is the one with its result's value; the lane step on an event sets the latch and
clears the counter, and its accumulators follow the filter's answer. -/
theorem directionalResultPassesTheHysteresisFilter : Obligations.DirectionalResultPassesTheHysteresisFilter := by
  unfold Obligations.DirectionalResultPassesTheHysteresisFilter
  intro a b s
  obtain ⟨t, hx, hlane⟩ := exec_scan_lane a b s
  refine ⟨t, hx, fun i q hq hvalue => ?_⟩
  obtain ⟨d, hd⟩ := exists_eq_dirValue hvalue
  have hclass : classOf (laneResult s.cfg (a.getLsbD i.val) (b.getLsbD i.val) (s.lane i)) = .directional d := by
    rw [laneResult, hq, classOf_eq_directional_iff, hd]
  rw [hlane, laneStep_of_event hclass, hd, ← eq_latchOf_iff, ← latchOf_eq_ite]
  have haccepts := accepts_iff s.cfg d (s.lane i)
  refine ⟨rfl, rfl, fun hpass => ?accepted, fun hfail => ?rejected⟩
  case accepted =>
    simp only [haccepts.mpr hpass, if_true]
    exact ⟨addStep_toInt _ d, addCycles_toNat _ _⟩
  case rejected =>
    have hreject := fun h => hfail (haccepts.mp h)
    exact ⟨if_neg hreject, if_neg hreject⟩

end Sys2Proof.Machine
end

section
/-!
The take operations (42_take_accumulators.md R150 to R152): a take rewrites one lane and the response port, what runs
beside it does not read them, and along a trace without a take the accumulators are the accepted events' totals.
-/

namespace Sys2Proof.Machine

/-! ### The accumulators after one operation -/

/-- Lane `id` after lane `j` is rewritten from its own elements. -/
theorem State.lane_rewrite (s : State) (j id : LaneId) (f : Lane → Lane) :
    (s.setLane j (f (s.lane j))).lane id = if j = id then f (s.lane id) else s.lane id := by
  by_cases e : j = id
  · rw [if_pos e, e, State.lane_setLane_self]
  · rw [if_neg e, State.lane_setLane_ne s j id _ (Ne.symm e)]

/-- The two accumulators of a lane after an operation that is no event of it: a take of the lane clears them, and every
other operation keeps them. -/
theorem accumulators_of_no_event {i : Instr} {s t : State} {id : LaneId} (h : eventOf id i s = none)
    (hx : exec i s = .next t) :
    (t.lane id).acc = (if takesAcc i = some id then 0#8 else (s.lane id).acc) ∧
    (t.lane id).sum = (if takesSum i = some id then 0#16 else (s.lane id).sum) := by
  rcases exec_next_cases hx with
    ⟨a, b, rfl, -⟩ | ⟨sw, rfl, rfl⟩ | ⟨j, rfl, rfl⟩ | ⟨j, rfl, rfl⟩ | ⟨j, rfl, rfl⟩ | ⟨v, -, hacc, hsum, rfl⟩
  · rw [lane_after_quiet_scan h hx]
    exact ⟨rfl, rfl⟩
  · exact ⟨rfl, rfl⟩
  · rw [State.respond_lane, State.lane_rewrite s j id clearAcc]
    by_cases e : j = id <;> simp [e, takesAcc, takesSum, clearAcc]
  · rw [State.respond_lane, State.lane_rewrite s j id clearSum]
    by_cases e : j = id <;> simp [e, takesAcc, takesSum, clearSum]
  · rw [State.respond_lane, State.lane_rewrite s j id fun l => clearSum (clearAcc l)]
    by_cases e : j = id <;> simp [e, takesAcc, takesSum, clearAcc, clearSum]
  · simp [hacc, hsum]

/-- Only a SCAN is an event. -/
theorem eventOf_of_not_scan {i : Instr} (h : ∀ a b, i ≠ .scan a b) (id : LaneId) (s : State) : eventOf id i s = none :=
  Option.eq_none_iff_forall_ne_some.mpr fun _ hd =>
    have ⟨a, b, hi, _⟩ := eventOf_eq_some hd
    h a b hi

section accepted
variable {id : LaneId} {i : Instr} {s : State}

theorem acceptedSteps_of_event {d : Dir} (h : eventOf id i s = some d) :
    acceptedSteps id i s = if accepts s.cfg d (s.lane id) then dirValue d else 0 := by
  cases ha : accepts s.cfg d (s.lane id) <;> simp [acceptedSteps, acceptedEvent, h, ha]

theorem acceptedCycles_of_event {d : Dir} (h : eventOf id i s = some d) :
    acceptedCycles id i s = if accepts s.cfg d (s.lane id) then (cycles (s.lane id) : Int) else 0 := by
  cases ha : accepts s.cfg d (s.lane id) <;> simp [acceptedCycles, acceptedEvent, h, ha]

theorem acceptedSteps_of_no_event (h : eventOf id i s = none) : acceptedSteps id i s = 0 := by
  simp [acceptedSteps, acceptedEvent, h]

theorem acceptedCycles_of_no_event (h : eventOf id i s = none) : acceptedCycles id i s = 0 := by
  simp [acceptedCycles, acceptedEvent, h]

variable {t : State}

/-- An operation that does not take a lane's steps adds its accepted steps to `ACC`, modulo 2^8 (R129, R133). -/
theorem acc_modEq_of_no_take (htake : takesAcc i ≠ some id) (hx : exec i s = .next t) :
    (t.lane id).acc.toInt ≡ (s.lane id).acc.toInt + acceptedSteps id i s [ZMOD 2 ^ 8] := by
  cases he : eventOf id i s with
  | none => rw [(accumulators_of_no_event he hx).left, if_neg htake, acceptedSteps_of_no_event he, add_zero]
  | some d =>
    obtain ⟨-, -, hacc, -⟩ := lane_after_event he hx
    rw [hacc, acceptedSteps_of_event he]
    split
    · rw [addStep_toInt]; exact Int.bmod_emod
    · rw [add_zero]

/-- An operation that does not take a lane's sum adds the cycles of its accepted event to `SUM`, modulo 2^16
(R129, R134). -/
theorem sum_modEq_of_no_take (htake : takesSum i ≠ some id) (hx : exec i s = .next t) :
    ((t.lane id).sum.toNat : Int) ≡ (s.lane id).sum.toNat + acceptedCycles id i s [ZMOD 2 ^ 16] := by
  cases he : eventOf id i s with
  | none => rw [(accumulators_of_no_event he hx).right, if_neg htake, acceptedCycles_of_no_event he, add_zero]
  | some d =>
    obtain ⟨-, -, -, hsum⟩ := lane_after_event he hx
    rw [hsum, acceptedCycles_of_event he]
    split
    · rw [addCycles_toNat]; exact_mod_cast Nat.mod_modEq _ _
    · rw [add_zero]

end accepted

/-! ### Totals along a trace -/

/-- The total of a trace is what its first operation adds and the total of the rest. -/
theorem totalAlong_cons {i : Instr} {s t : State} (hx : exec i s = .next t) (f : Instr → State → State → Int)
    (is : List Instr) : totalAlong f (i :: is) s = f i s t + totalAlong f is t := by
  rw [totalAlong, hx]

/-- A quantity to which each operation of a trace adds its share, modulo `n`, has had the trace's total added. -/
theorem modEq_totalAlong {n : Int} {value : State → Int} {f : Instr → State → State → Int} {ops : List Instr}
    (hstep : ∀ o ∈ ops, ∀ s t, exec o s = .next t → value t ≡ value s + f o s t [ZMOD n]) {s t : State}
    (hrun : runTrace ops s = .next t) : value t ≡ value s + totalAlong f ops s [ZMOD n] := by
  induction ops generalizing s with
  | nil => rw [next_inj hrun, totalAlong, add_zero]
  | cons i is ih =>
    rw [List.forall_mem_cons] at hstep
    obtain ⟨u, hx, hrest⟩ := andThen_eq_next.mp hrun
    rw [totalAlong_cons hx, ← add_assoc]
    exact (ih hstep.right hrest).trans ((hstep.left s u hx).add_right _)

/-- Where no operation of a trace adds anything, the total is 0. -/
theorem totalAlong_eq_zero {f : Instr → State → State → Int} {ops : List Instr} (h : ∀ o ∈ ops, ∀ s t, f o s t = 0)
    (s : State) : totalAlong f ops s = 0 := by
  induction ops generalizing s with
  | nil => rfl
  | cons i is ih =>
    rw [List.forall_mem_cons] at h
    cases hx : exec i s with
    | next t => rw [totalAlong_cons hx, h.left, ih h.right, add_zero]
    | fault r => rw [totalAlong, hx]
    | refused r => rw [totalAlong, hx]

/-- From `ACC = 0`, along a trace without a take of the lane's steps, `ACC` is the accepted steps modulo 2^8, signed
(R150). -/
theorem acc_eq_bmod_totalAlong {id : LaneId} {ops : List Instr} {s t : State} (hzero : (s.lane id).acc = 0#8)
    (htake : ∀ o ∈ ops, takesAcc o ≠ some id) (hrun : runTrace ops s = .next t) :
    (t.lane id).acc.toInt = Int.bmod (totalAlong (fun i x _ => acceptedSteps id i x) ops s) (2 ^ 8) := by
  have hmod : (t.lane id).acc.toInt ≡ totalAlong (fun i x _ => acceptedSteps id i x) ops s [ZMOD (2 ^ 8 : Nat)] := by
    simpa [hzero] using modEq_totalAlong (value := fun x => (x.lane id).acc.toInt)
      (fun o ho _ _ => acc_modEq_of_no_take (htake o ho)) hrun
  rw [← Int.emod_bmod, ← hmod, Int.emod_bmod, BitVec.toInt_bmod_cancel]

/-- From `SUM = 0`, along a trace without a take of the lane's sum, `SUM` is the accepted cycles modulo 2^16 (R151). -/
theorem sum_eq_emod_totalAlong {id : LaneId} {ops : List Instr} {s t : State} (hzero : (s.lane id).sum = 0#16)
    (htake : ∀ o ∈ ops, takesSum o ≠ some id) (hrun : runTrace ops s = .next t) :
    ((t.lane id).sum.toNat : Int) = totalAlong (fun i x _ => acceptedCycles id i x) ops s % 2 ^ 16 := by
  have hmod : ((t.lane id).sum.toNat : Int) ≡ totalAlong (fun i x _ => acceptedCycles id i x) ops s [ZMOD 2 ^ 16] := by
    simpa [hzero] using modEq_totalAlong (value := fun x => ((x.lane id).sum.toNat : Int))
      (fun o ho _ _ => sum_modEq_of_no_take (htake o ho)) hrun
  have hlt := (t.lane id).sum.isLt
  rw [← hmod]
  omega

theorem not_scan_of_scansIn_eq_zero {ops : List Instr} (h : scansIn ops = 0) :
    ∀ o ∈ ops, ∀ a b, o ≠ .scan a b := by
  rintro o ho a b rfl
  exact List.countP_eq_zero.mp h _ ho rfl

/-! ### A take rewrites one lane and the response port -/

/-- The state with the elements `l` in lane `id` and `r` on the response port, the two places that a take writes. -/
def State.putLane (s : State) (id : LaneId) (l : Lane) (r : Option Response) : State :=
  { s.setLane id l with rsp := r }

section putLane
variable (s : State) (id : LaneId) (l : Lane) (r : Option Response)

@[simp] theorem State.putLane_lane_self : (s.putLane id l r).lane id = l := s.lane_setLane_self id l

theorem State.putLane_lane_ne : ∀ j, j ≠ id → (s.putLane id l r).lane j = s.lane j :=
  fun j hj => s.lane_setLane_ne id j l hj

@[simp] theorem State.putLane_putLane (l' : Lane) (r' : Option Response) :
    (s.putLane id l r).putLane id l' r' = s.putLane id l' r' := by
  simp [State.putLane, State.setLane]

theorem State.setLane_comm {i j : LaneId} (h : i ≠ j) (l l' : Lane) :
    (s.setLane i l).setLane j l' = (s.setLane j l').setLane i l := by
  have hval : i.val ≠ j.val := fun e => h (Fin.ext e)
  simp [State.setLane, Vector.set_comm _ _ hval]

theorem sameDebounce_putLane : SameDebounce s (s.putLane id l r) := sameDebounce_refl s

theorem sameSurround_putLane : SameSurround s (s.putLane id l r) := ⟨rfl, rfl⟩

theorem exec_takeSteps_eq_putLane :
    exec (.takeSteps id) s = .next (s.putLane id (clearAcc (s.lane id)) (some (stepsResponse (s.lane id).acc))) := rfl

theorem exec_takeSum_eq_putLane :
    exec (.takeSum id) s = .next (s.putLane id (clearSum (s.lane id)) (some (sumResponse (s.lane id).sum))) := rfl

theorem exec_takeBoth_eq_putLane :
    exec (.takeBoth id) s = .next (s.putLane id (clearSum (clearAcc (s.lane id)))
      (some (bothResponse (s.lane id).acc (s.lane id).sum))) := rfl

theorem exec_takeSteps_putLane :
    exec (.takeSteps id) (s.putLane id l r) = .next (s.putLane id (clearAcc l) (some (stepsResponse l.acc))) := by
  rw [exec_takeSteps_eq_putLane, State.putLane_lane_self, State.putLane_putLane]

theorem exec_takeSum_putLane :
    exec (.takeSum id) (s.putLane id l r) = .next (s.putLane id (clearSum l) (some (sumResponse l.sum))) := by
  rw [exec_takeSum_eq_putLane, State.putLane_lane_self, State.putLane_putLane]

/-- Rewriting another lane from its own elements, next to a lane put in place, is the same in either order. -/
theorem State.putLane_rewrite_ne {j : LaneId} (h : j ≠ id) (f : Lane → Lane) (v : Option Response) :
    (s.putLane id l r).putLane j (f ((s.putLane id l r).lane j)) v = (s.setLane j (f (s.lane j))).putLane id l v := by
  rw [State.putLane_lane_ne s id l r j h]
  have hcomm := State.setLane_comm s (Ne.symm h) l (f (s.lane j))
  exact congrArg (fun u : State => { u with rsp := v }) hcomm

end putLane

/-! ### What runs beside a take -/

/-- An operation that neither scans nor takes a lane reads neither the lane nor the response port: whatever they hold, it
leaves the same state around the lane, and the lane itself as it was (R61). -/
theorem exec_putLane {i : Instr} {id : LaneId} (hscan : ∀ a b, i ≠ .scan a b) (hacc : takesAcc i ≠ some id)
    (hsum : takesSum i ≠ some id) (s : State) :
    ∃ t : State, ∀ l r, ∃ r', exec i (s.putLane id l r) = .next (t.putLane id l r') := by
  cases i with
  | scan a b => exact absurd rfl (hscan a b)
  | swupd sw => exact ⟨updateStable (pushSample sw s), fun l r => ⟨r, rfl⟩⟩
  | takeSteps j =>
    have hj : j ≠ id := fun e => hacc (congrArg some e)
    exact ⟨s.setLane j (clearAcc (s.lane j)), fun l r =>
      ⟨_, congrArg Host.Outcome.next (s.putLane_rewrite_ne id l r hj clearAcc _)⟩⟩
  | takeSum j =>
    have hj : j ≠ id := fun e => hsum (congrArg some e)
    exact ⟨s.setLane j (clearSum (s.lane j)), fun l r =>
      ⟨_, congrArg Host.Outcome.next (s.putLane_rewrite_ne id l r hj clearSum _)⟩⟩
  | takeBoth j =>
    have hj : j ≠ id := fun e => hacc (congrArg some e)
    exact ⟨s.setLane j (clearSum (clearAcc (s.lane j))), fun l r =>
      ⟨_, congrArg Host.Outcome.next (s.putLane_rewrite_ne id l r hj (fun l => clearSum (clearAcc l)) _)⟩⟩
  | _ => exact ⟨s, fun l r => ⟨_, rfl⟩⟩

/-- The same of a trace. -/
theorem runTrace_putLane {ops : List Instr} {id : LaneId} (hscan : ∀ o ∈ ops, ∀ a b, o ≠ .scan a b)
    (htakes : ∀ o ∈ ops, takesAcc o ≠ some id ∧ takesSum o ≠ some id) (s : State) :
    ∃ t : State, ∀ l r, ∃ r', runTrace ops (s.putLane id l r) = .next (t.putLane id l r') := by
  induction ops generalizing s with
  | nil => exact ⟨s, fun l r => ⟨r, rfl⟩⟩
  | cons i is ih =>
    rw [List.forall_mem_cons] at hscan htakes
    obtain ⟨hacc, hsum⟩ := htakes.left
    obtain ⟨u, hu⟩ := exec_putLane hscan.left hacc hsum s
    obtain ⟨t, ht⟩ := ih hscan.right htakes.right u
    refine ⟨t, fun l r => ?_⟩
    obtain ⟨r1, hexec⟩ := hu l r
    obtain ⟨r2, hrest⟩ := ht l r1
    exact ⟨r2, by rw [runTrace_cons, hexec, andThen_next, hrest]⟩

/-! ### The obligations -/

/-- Settles O40: a take of the steps is a rewrite of the lane and the port; along a trace without one, `ACC` has gained
the accepted steps modulo 2^8, and none where the trace has no SCAN. -/
theorem takeStepsReturnsAndClears : Obligations.TakeStepsReturnsAndClears := by
  unfold Obligations.TakeStepsReturnsAndClears
  refine ⟨fun id ops s t u r hzero htake hrun hx hr => ?meaning, fun id s => ?taken⟩
  case meaning =>
    obtain rfl := next_inj hx
    obtain rfl := Option.some_inj.mp hr
    have hacc := acc_eq_bmod_totalAlong hzero htake hrun
    refine ⟨by rw [stepsOfTakeSteps_stepsResponse, hacc], fun hnone => ?_⟩
    have htotal : totalAlong (fun i x _ => acceptedSteps id i x) ops s = 0 := totalAlong_eq_zero (fun o ho x _ =>
      acceptedSteps_of_no_event (eventOf_of_not_scan (not_scan_of_scansIn_eq_zero hnone o ho) id x)) s
    have hclear : (t.lane id).acc = 0#8 := BitVec.toInt_inj.mp (by rw [hacc, htotal]; rfl)
    rw [hclear]
    rfl
  case taken =>
    exact ⟨_, _, exec_takeSteps_eq_putLane s id, rfl, rfl, stepsOfTakeSteps_stepsResponse _,
      State.putLane_lane_self s id _ _, State.putLane_lane_ne s id _ _, sameDebounce_putLane s id _ _,
      sameSurround_putLane s id _ _, _, exec_takeSteps_putLane s id _ _, rfl, rfl⟩

/-- Settles O41: a take of the sum is a rewrite of the lane and the port; along a trace without one, `SUM` has gained the
cycles of the accepted events modulo 2^16. -/
theorem takeSumReturnsAndClears : Obligations.TakeSumReturnsAndClears := by
  unfold Obligations.TakeSumReturnsAndClears
  refine ⟨fun id ops s t u r hzero htake hrun hx hr => ?meaning, fun id s => ?taken⟩
  case meaning =>
    obtain rfl := next_inj hx
    obtain rfl := Option.some_inj.mp hr
    rw [sumOfResponse_sumResponse, sum_eq_emod_totalAlong hzero htake hrun]
  case taken =>
    have hlane := State.putLane_lane_self s id (clearSum (s.lane id)) (some (sumResponse (s.lane id).sum))
    exact ⟨_, _, exec_takeSum_eq_putLane s id, rfl, rfl, sumOfResponse_sumResponse _, hlane,
      (congrArg Lane.idle hlane :), State.putLane_lane_ne s id _ _, sameDebounce_putLane s id _ _,
      sameSurround_putLane s id _ _⟩

/-- Settles O42: what comes between the two takes leaves one state around the lane whatever the lane holds, and the lane
as it finds it, so either order of the takes ends where TAKE_BOTH does. -/
theorem takeBothIsTheTwoTakes : Obligations.TakeBothIsTheTwoTakes := by
  unfold Obligations.TakeBothIsTheTwoTakes
  refine fun id s => ⟨_, _, exec_takeBoth_eq_putLane s id, rfl, rfl, State.putLane_lane_self s id _ _,
    State.putLane_lane_ne s id _ _, sameDebounce_putLane s id _ _, sameSurround_putLane s id _ _,
    fun between hnone htakes => ?_⟩
  obtain ⟨m, hm⟩ := runTrace_putLane (not_scan_of_scansIn_eq_zero hnone) htakes s
  obtain ⟨_, hboth⟩ := hm (clearSum (clearAcc (s.lane id))) (some (bothResponse (s.lane id).acc (s.lane id).sum))
  obtain ⟨_, hsteps⟩ := hm (clearAcc (s.lane id)) (some (stepsResponse (s.lane id).acc))
  obtain ⟨_, hsum⟩ := hm (clearSum (s.lane id)) (some (sumResponse (s.lane id).sum))
  refine ⟨_, _, _, _, _, _, _, _, _, _, _, hboth,
    exec_takeSteps_eq_putLane s id, hsteps, exec_takeSum_putLane m id _ _,
    exec_takeSum_eq_putLane s id, hsum, exec_takeSteps_putLane m id _ _,
    rfl, rfl, rfl, rfl, ?_, ?_, ?_, ?_, rfl, rfl⟩
  · rw [stepsOfTakeSteps_stepsResponse, stepsOfTakeBoth_bothResponse]
  · rw [sumOfResponse_sumResponse, sumOfResponse_bothResponse]; rfl
  · rw [sumOfResponse_sumResponse, sumOfResponse_bothResponse]
  · rw [stepsOfTakeSteps_stepsResponse, stepsOfTakeBoth_bothResponse]; rfl

end Sys2Proof.Machine
end

section
/-!
Completion and order (60_exceptions.md R170, R174): every operation, clock and trace answers a next state, and SCAN and
SWUPD commute and leave the response port.
-/

namespace Sys2Proof.Machine

/-! ### Everything completes -/

/-- Every operation completes, on every operand and in every state (R170). -/
theorem exec_total (i : Instr) (s : State) : ∃ t, exec i s = .next t := by
  cases i with
  | scan a b => exact ⟨_, exec_scan s a b⟩
  | swupd sw => exact ⟨_, exec_swupd s sw⟩
  | takeSteps id => exact ⟨_, exec_takeSteps s id⟩
  | takeSum id => exact ⟨_, exec_takeSum s id⟩
  | takeBoth id => exact ⟨_, exec_takeBoth s id⟩
  | rdStable x => exact ⟨_, exec_rdStable s x⟩
  | rdUp x => exact ⟨_, exec_rdUp s x⟩
  | rdDown x => exact ⟨_, exec_rdDown s x⟩
  | reservedOp0 x => exact ⟨_, exec_reservedOp0 s x⟩
  | reservedOp7 x => exact ⟨_, exec_reservedOp7 s x⟩
  | reservedOp8F op x => exact ⟨_, exec_reservedOp8F s op x⟩

/-- A chain completes when its first part does and its second part does in every state. -/
theorem andThen_total {o : Host.Outcome State Fault Refusal} {f : State → Host.Outcome State Fault Refusal}
    (ho : ∃ s, o = .next s) (hf : ∀ s, ∃ t, f s = .next t) : ∃ t, andThen o f = .next t := by
  obtain ⟨s, rfl⟩ := ho
  exact hf s

theorem strobe_total (w : Option OpWord) (s : State) : ∃ t, strobe w s = .next t := by
  cases w with
  | none => exact ⟨s, strobe_none s⟩
  | some x => exact exec_total (decode x) s

theorem strobes_total (p : Pins) (s : State) : ∃ t, strobes p s = .next t :=
  andThen_total (andThen_total (strobe_total _ s) (strobe_total _)) (strobe_total _)

/-- Every clock completes, whether the reset pin is high or low (R170, R190). -/
theorem clock_total (p : Pins) (s : State) : ∃ t, clock p s = .next t := by
  cases hrst : p.rst with
  | true => exact ⟨_, clock_of_rst hrst s⟩
  | false => rw [clock_of_not_rst hrst]; exact strobes_total p s

theorem step_total (s : State) : ∃ t, step s = .next t := clock_total (nextPins s) (beginClock s)

theorem runTrace_total (ops : List Instr) (s : State) : ∃ t, runTrace ops s = .next t := by
  induction ops generalizing s with
  | nil => exact ⟨s, runTrace_nil s⟩
  | cons i is ih => exact andThen_total (exec_total i s) ih

/-! ### SCAN and SWUPD in one clock -/

/-- What SWUPD does neither reads nor writes a lane (R40). -/
theorem updateStable_pushSample_mapLanes (sw : Mask) (s : State) (f : LaneId → Lane → Lane) :
    updateStable (pushSample sw (s.mapLanes f)) = (updateStable (pushSample sw s)).mapLanes f := rfl

/-- SCAN and SWUPD end in the same state in either order (R174): the lane steps read lanes and parameters only. -/
theorem exec_scan_swupd_comm (a b sw : Mask) (s : State) :
    andThen (exec (.scan a b) s) (exec (.swupd sw)) = andThen (exec (.swupd sw) s) (exec (.scan a b)) := by
  rw [exec_scan, exec_swupd, andThen_next, andThen_next, exec_scan, exec_swupd,
    updateStable_pushSample_mapLanes, updateStable_cfg, pushSample_cfg]

/-- The strobes of the two ports may be served in either order (R174). -/
theorem strobe_scan_switch_comm (scan : Option (BitVec 32)) (switch : Option (BitVec 16)) (s : State) :
    andThen (strobe (scan.map .scan) s) (strobe (switch.map .switch)) =
      andThen (strobe (switch.map .switch) s) (strobe (scan.map .scan)) := by
  cases scan with
  | none => exact (andThen_strobe_none _).symm
  | some w =>
    cases switch with
    | none => exact andThen_strobe_none _
    | some v => exact exec_scan_swupd_comm _ _ v s

/-- An operation that is no CONSUMER command leaves the response port (R32). -/
theorem exec_rsp_of_not_command {i : Instr} {s t : State} (hi : isCommand i = false) (hx : exec i s = .next t) :
    t.rsp = s.rsp := by
  cases i with
  | scan a b => rw [← next_inj hx]; rfl
  | swupd sw => rw [← next_inj hx]; rfl
  | _ => exact absurd hi.symm Bool.false_ne_true

/-- A strobe that calls for no CONSUMER command leaves the response port. -/
theorem strobe_rsp_of_not_command {w : Option OpWord} {s t : State} (hw : ∀ x ∈ w, isCommand (decode x) = false)
    (hx : strobe w s = .next t) : t.rsp = s.rsp := by
  cases w with
  | none => rw [next_inj hx]
  | some x => exact exec_rsp_of_not_command (hw x rfl) hx

theorem strobe_scan_rsp {w : Option (BitVec 32)} {s t : State} (hx : strobe (w.map .scan) s = .next t) :
    t.rsp = s.rsp :=
  strobe_rsp_of_not_command (by simp [decode, isCommand]) hx

theorem strobe_switch_rsp {w : Option (BitVec 16)} {s t : State} (hx : strobe (w.map .switch) s = .next t) :
    t.rsp = s.rsp :=
  strobe_rsp_of_not_command (by simp [decode, isCommand]) hx

/-- With `rst` low a step serves the three strobes in the order command, SCAN, SWUPD (R174). -/
theorem step_of_not_rst {s : State} (hrst : (nextPins s).rst = false) : step s = strobes (nextPins s) (beginClock s) :=
  clock_of_not_rst hrst (beginClock s)

/-! ### The obligations -/

/-- Settles O14: the clock is the chain of its strobes, of which the command alone writes the response, and the other two
commute. -/
theorem simultaneousStrobesRunCommandFirst : Obligations.SimultaneousStrobesRunCommandFirst := by
  unfold Obligations.SimultaneousStrobesRunCommandFirst
  intro s hrst
  obtain ⟨t1, hcommand⟩ := strobe_total ((nextPins s).command.map .command) (beginClock s)
  obtain ⟨t2, hscan⟩ := strobe_total ((nextPins s).scan.map .scan) t1
  obtain ⟨t3, hswitch⟩ := strobe_total ((nextPins s).switch.map .switch) t2
  have hstep : step s = .next t3 := by
    rw [step_of_not_rst hrst, strobes, hcommand, andThen_next, hscan, andThen_next, hswitch]
  have hother : andThen (strobe ((nextPins s).switch.map .switch) t1) (strobe ((nextPins s).scan.map .scan)) =
      .next t3 := by
    rw [← strobe_scan_switch_comm, hscan, andThen_next, hswitch]
  obtain ⟨u, hswitchFirst, hscanSecond⟩ := andThen_eq_next.mp hother
  have hrsp : t3.rsp = t1.rsp := (strobe_switch_rsp hswitch).trans (strobe_scan_rsp hscan)
  exact ⟨t1, t2, t3, u, hcommand, hscan, hswitch, hstep, hrsp, hswitchFirst, hscanSecond⟩

/-- Settles O16: every operation completes, so every chain of operations does, in a clock or along a trace; `Fault` has no
constructor. -/
theorem everyOperationCompletes : Obligations.EveryOperationCompletes := by
  unfold Obligations.EveryOperationCompletes
  exact ⟨exec_total, step_total, nofun, runTrace_total⟩

end Sys2Proof.Machine
end

section
/-!
Decoding and encoding are inverse to each other (30_encoding.md sections 6 and 8), which bytes the reads and the
reserved words are, and the obligations about them.
-/

namespace Sys2Proof

/-- Settles O1: each operation's word has the operation's code, and its fields come back out of it. -/
theorem decodeOfEncodeIsTheOperation : Obligations.DecodeOfEncodeIsTheOperation := by
  unfold Obligations.DecodeOfEncodeIsTheOperation
  intro i hwf
  cases i with
  | scan a b =>
    have ha : (a ++ b).extractLsb' 16 16 = a := BitVec.extractLsb'_append_eq_left
    have hb : (a ++ b).extractLsb' 0 16 = b := BitVec.extractLsb'_append_eq_right
    exact congrArg₂ Instr.scan ha hb
  | swupd sw => rfl
  | takeSteps id => exact decode_commandWord_takeSteps _
  | takeSum id => exact decode_commandWord_takeSum _
  | takeBoth id => exact decode_commandWord_takeBoth _
  | rdStable x => exact decode_commandWord_rdStable x
  | rdUp x => exact decode_commandWord_rdUp x
  | rdDown x => exact decode_commandWord_rdDown x
  | reservedOp0 x => exact decode_commandWord_reservedOp0 x
  | reservedOp7 x => exact decode_commandWord_reservedOp7 x
  | reservedOp8F op x => exact decode_commandWord_reservedOp8F x (of_decide_eq_true hwf)

/-- Settles O2: a scan word is its two masks, and a command word, row by row of the command map, its two fields. -/
theorem encodeOfDecodeIsTheWord : Obligations.EncodeOfDecodeIsTheWord := by
  unfold Obligations.EncodeOfDecodeIsTheWord
  intro w
  cases w with
  | scan w => exact ⟨rfl, congrArg OpWord.scan (scanWord_fields w)⟩
  | switch w => exact ⟨rfl, rfl⟩
  | command w =>
    cases w using commandWord_cases with
    | reservedOp8F op x h =>
      rw [decode_commandWord_reservedOp8F x h]
      exact ⟨decide_eq_true h, rfl⟩
    | _ x => simp [Instr.wf, encode]

/-- Settles O5: each written-out word is evaluated. -/
theorem writtenOutWordsDecode : Obligations.WrittenOutWordsDecode := by
  unfold Obligations.WrittenOutWordsDecode
  decide

/-- A lane number as a field, written as its number. -/
theorem ofNat_lane (id : LaneId) : BitVec.ofNat 4 id.val = fieldOfLane id := BitVec.ofNat_toNat 4 (fieldOfLane id)

/-- Settles O58: the byte of a read or a reserved word is the command word of its two fields. -/
theorem ignoredFieldsAreKept : Obligations.IgnoredFieldsAreKept := by
  unfold Obligations.IgnoredFieldsAreKept
  refine ⟨fun x => ?named, fun op x hop => ?upper⟩
  case named =>
    have hzero : decode (.command (BitVec.ofNat 8 (0 + x.val))) = .reservedOp0 (fieldOfLane x) :=
      decode_command_byte rfl (decode_commandWord_reservedOp0 _)
    rw [Nat.zero_add] at hzero
    rw [ofNat_lane]
    exact ⟨decode_command_byte rfl (decode_commandWord_rdStable _), decode_command_byte rfl (decode_commandWord_rdUp _),
      decode_command_byte rfl (decode_commandWord_rdDown _), hzero,
      decode_command_byte rfl (decode_commandWord_reservedOp7 _)⟩
  case upper =>
    rw [ofNat_lane, ofNat_lane]
    exact decode_command_byte rfl (decode_commandWord_reservedOp8F _ hop)

end Sys2Proof
end

section
/-!
Operations by what they touch (10_state.md section 7): a SCAN steps every lane, a take clears accumulators, SWUPD and
the reads see the debounce half; and the obligations about frames, independence and commutation.
-/

namespace Sys2Proof.Machine

/-! ### The lanes -/

/-- An operation is a SCAN or it is not. -/
theorem scan_or_not (i : Instr) : (∃ a b, i = .scan a b) ∨ ∀ a b, i ≠ .scan a b := by
  cases i with
  | scan a b => exact .inl ⟨a, b, rfl⟩
  | _ => exact .inr (by simp)

/-- A SCAN leaves every lane as its lane step on its own two bits does (R120). -/
theorem lane_after_scan {a b : Mask} {s t : State} (hx : exec (.scan a b) s = .next t) (i : LaneId) :
    t.lane i = laneStep s.cfg (laneBit a i) (laneBit b i) (s.lane i) := by
  rw [← next_inj hx]
  exact State.lane_mapLanes s _ i

/-- The accumulators that an operation other than SCAN clears in lane `id`. -/
def clearTaken (i : Instr) (id : LaneId) (l : Lane) : Lane :=
  { l with acc := if takesAcc i = some id then 0#8 else l.acc, sum := if takesSum i = some id then 0#16 else l.sum }

theorem clearTaken_of_no_take {i : Instr} {id : LaneId} (hacc : takesAcc i ≠ some id) (hsum : takesSum i ≠ some id)
    (l : Lane) : clearTaken i id l = l := by
  rw [clearTaken, if_neg hacc, if_neg hsum]

/-- Clearing accumulators twice does not depend on the order. -/
theorem clearTaken_comm (i j : Instr) (id : LaneId) (l : Lane) :
    clearTaken i id (clearTaken j id l) = clearTaken j id (clearTaken i id l) := by
  unfold clearTaken
  congr 1
  · split <;> split <;> rfl
  · split <;> split <;> rfl

/-- An operation other than SCAN leaves every lane but for the accumulators it takes (R150, R151, R152). -/
theorem lane_of_not_scan {i : Instr} {s t : State} (hi : ∀ a b, i ≠ .scan a b) (hx : exec i s = .next t) (id : LaneId) :
    t.lane id = clearTaken i id (s.lane id) := by
  rcases exec_next_cases hx with
    ⟨a, b, rfl, -⟩ | ⟨sw, rfl, rfl⟩ | ⟨j, rfl, rfl⟩ | ⟨j, rfl, rfl⟩ | ⟨j, rfl, rfl⟩ | ⟨v, -, hacc, hsum, rfl⟩
  · exact absurd rfl (hi a b)
  · rfl
  · rw [State.respond_lane, State.lane_rewrite s j id clearAcc]
    by_cases e : j = id <;> simp [e, clearTaken, takesAcc, takesSum, clearAcc]
  · rw [State.respond_lane, State.lane_rewrite s j id clearSum]
    by_cases e : j = id <;> simp [e, clearTaken, takesAcc, takesSum, clearSum]
  · rw [State.respond_lane, State.lane_rewrite s j id fun l => clearSum (clearAcc l)]
    by_cases e : j = id <;> simp [e, clearTaken, takesAcc, takesSum, clearAcc, clearSum]
  · rw [State.respond_lane, clearTaken_of_no_take (by simp [hacc]) (by simp [hsum])]

theorem not_scan_of_isCommand {i : Instr} (h : isCommand i = true) : ∀ a b, i ≠ .scan a b := by
  rintro a b rfl
  exact Bool.false_ne_true h

theorem not_swupd_of_isCommand {i : Instr} (h : isCommand i = true) : ∀ sw, i ≠ .swupd sw := by
  rintro sw rfl
  exact Bool.false_ne_true h

/-- An operation outside the quadrature half takes nothing and is no SCAN (R40). -/
theorem takes_none_of_not_usesQuadrature {i : Instr} (h : usesQuadrature i = false) :
    (∀ a b, i ≠ .scan a b) ∧ takesAcc i = none ∧ takesSum i = none := by
  cases i with
  | scan | takeSteps | takeSum | takeBoth => exact absurd h.symm Bool.false_ne_true
  | _ => exact ⟨nofun, rfl, rfl⟩

/-- An operation outside the quadrature half leaves the lanes (R40). -/
theorem sameQuadrature_of_not_usesQuadrature {i : Instr} {s t : State} (h : usesQuadrature i = false)
    (hx : exec i s = .next t) : SameQuadrature s t := by
  intro id
  obtain ⟨hscan, hacc, hsum⟩ := takes_none_of_not_usesQuadrature h
  rw [lane_of_not_scan hscan hx, clearTaken_of_no_take (by simp [hacc]) (by simp [hsum])]

/-- An operation from two states with the same parameters and lanes leaves the same lanes. -/
theorem sameQuadrature_congr {i : Instr} {s s' t t' : State} (hcfg : s'.cfg = s.cfg) (hlanes : SameQuadrature s s')
    (hx : exec i s = .next t) (hx' : exec i s' = .next t') : SameQuadrature t t' := by
  intro id
  rcases scan_or_not i with ⟨a, b, rfl⟩ | hi
  · rw [lane_after_scan hx, lane_after_scan hx', hcfg, hlanes]
  · rw [lane_of_not_scan hi hx, lane_of_not_scan hi hx', hlanes]

/-! ### The debounce half -/

/-- An operation is a SWUPD or it is not. -/
theorem swupd_or_not (i : Instr) : (∃ sw, i = .swupd sw) ∨ ∀ sw, i ≠ .swupd sw := by
  cases i with
  | swupd sw => exact .inl ⟨sw, rfl⟩
  | _ => exact .inr (by simp)

/-- An operation other than SWUPD leaves the debounce half (R40). -/
theorem sameDebounce_of_not_swupd {i : Instr} {s t : State} (hi : ∀ sw, i ≠ .swupd sw) (hx : exec i s = .next t) :
    SameDebounce s t := by
  rcases exec_debounce_cases hx with ⟨sw, rfl, -⟩ | ⟨-, hsame⟩
  · exact absurd rfl (hi sw)
  · exact hsame

theorem sameDebounce_symm {s t : State} (h : SameDebounce s t) : SameDebounce t s := by
  obtain ⟨hbuf, hwidx, hstable, hup, hdown⟩ := h
  exact ⟨hbuf.symm, hwidx.symm, hstable.symm, hup.symm, hdown.symm⟩

/-- An operation from two states with the same parameters and debounce half leaves the same debounce half. -/
theorem sameDebounce_congr {i : Instr} {s s' t t' : State} (hcfg : s'.cfg = s.cfg) (hsame : SameDebounce s s')
    (hx : exec i s = .next t) (hx' : exec i s' = .next t') : SameDebounce t t' := by
  rcases swupd_or_not i with ⟨sw, rfl⟩ | hi
  · obtain ⟨hbuf, hwidx, hstable, -, -⟩ := hsame
    rw [← next_inj hx, ← next_inj hx']
    simp [SameDebounce, hcfg, hbuf, hwidx, hstable]
  · exact sameDebounce_trans (sameDebounce_symm (sameDebounce_of_not_swupd hi hx))
      (sameDebounce_trans hsame (sameDebounce_of_not_swupd hi hx'))

/-! ### The response -/

/-- The response of a command is made of the accumulators it takes and of the debounce half where it uses it (R85). -/
theorem rsp_congr {i : Instr} {s s' t t' : State} (hi : isCommand i = true)
    (hacc : ∀ id, takesAcc i = some id → (s'.lane id).acc = (s.lane id).acc)
    (hsum : ∀ id, takesSum i = some id → (s'.lane id).sum = (s.lane id).sum)
    (hdebounce : usesDebounce i = true → SameDebounce s s')
    (hx : exec i s = .next t) (hx' : exec i s' = .next t') : t'.rsp = t.rsp := by
  cases i with
  | scan | swupd => exact absurd hi Bool.false_ne_true
  | takeSteps id => rw [← next_inj hx, ← next_inj hx', State.respond_rsp, hacc id rfl, State.respond_rsp]
  | takeSum id => rw [← next_inj hx, ← next_inj hx', State.respond_rsp, hsum id rfl, State.respond_rsp]
  | takeBoth id =>
    rw [← next_inj hx, ← next_inj hx', State.respond_rsp, hacc id rfl, hsum id rfl, State.respond_rsp]
  | rdStable =>
    obtain ⟨-, -, hstable, -, -⟩ := hdebounce rfl
    rw [← next_inj hx, ← next_inj hx', State.respond_rsp, hstable, State.respond_rsp]
  | rdUp =>
    obtain ⟨-, -, -, hup, -⟩ := hdebounce rfl
    rw [← next_inj hx, ← next_inj hx', State.respond_rsp, hup, State.respond_rsp]
  | rdDown =>
    obtain ⟨-, -, -, -, hdown⟩ := hdebounce rfl
    rw [← next_inj hx, ← next_inj hx', State.respond_rsp, hdown, State.respond_rsp]
  | reservedOp0 | reservedOp7 | reservedOp8F => rw [← next_inj hx, ← next_inj hx']; rfl

/-- A command has a response (R85). -/
theorem rsp_isSome_of_isCommand {i : Instr} {s t : State} (hi : isCommand i = true) (hx : exec i s = .next t) :
    t.rsp.isSome = true := by
  cases i with
  | scan | swupd => exact absurd hi Bool.false_ne_true
  | _ => rw [← next_inj hx]; rfl

/-! ### The block -/

/-- Two states are the same block when they agree in the parameters and in both halves. -/
theorem blockOf_eq_iff {s t : State} :
    t.blockOf = s.blockOf ↔ t.cfg = s.cfg ∧ SameQuadrature s t ∧ SameDebounce s t := by
  constructor
  · intro h
    exact ⟨(congrArg State.cfg h :), fun id => (congrArg (State.lane · id) h :), (congrArg State.buf h :),
      (congrArg State.widx h :), (congrArg State.stable h :), (congrArg State.up h :), (congrArg State.down h :)⟩
  · rintro ⟨hcfg, hlanes, hbuf, hwidx, hstable, hup, hdown⟩
    exact State.ext_lanes hcfg hlanes hbuf hwidx hstable hup hdown rfl rfl

/-- An operation does the same to the same block, whatever the response port shows and the agents will present. -/
theorem blockOf_congr {i : Instr} {s s' t t' : State} (h : s'.blockOf = s.blockOf) (hx : exec i s = .next t)
    (hx' : exec i s' = .next t') : t'.blockOf = t.blockOf := by
  obtain ⟨hcfg, hlanes, hdebounce⟩ := blockOf_eq_iff.mp h
  exact blockOf_eq_iff.mpr ⟨by rw [exec_cfg hx, exec_cfg hx', hcfg], sameQuadrature_congr hcfg hlanes hx hx',
    sameDebounce_congr hcfg hdebounce hx hx'⟩

/-! ### Commutation -/

/-- Two optional lanes are not the same lane. -/
theorem lanes_apart_iff (x y : Option LaneId) :
    (x == none || y == none || x != y) = true ↔ ∀ id, x = some id → y ≠ some id := by
  cases x with
  | none => simp
  | some i =>
    cases y with
    | none => simp
    | some j => simpa using ne_comm

/-- Operations that share no state: no half is used by both, or both are commands that take no common accumulator
(R61). -/
theorem shareNoState_iff {i j : Instr} : shareNoState i j = true ↔
    ((usesQuadrature i = false ∨ usesQuadrature j = false) ∧ (usesDebounce i = false ∨ usesDebounce j = false)) ∨
    (isCommand i = true ∧ isCommand j = true ∧ (∀ id, takesAcc i = some id → takesAcc j ≠ some id) ∧
      (∀ id, takesSum i = some id → takesSum j ≠ some id)) := by
  simp only [shareNoState, ← lanes_apart_iff, Bool.or_eq_true, Bool.and_eq_true, Bool.not_eq_true',
    Bool.and_eq_false_iff, and_assoc]

theorem shareNoState_symm {i j : Instr} (h : shareNoState i j = true) : shareNoState j i = true := by
  rw [shareNoState_iff] at h ⊢
  rcases h with ⟨hquad, hdeb⟩ | ⟨hi, hj, hacc, hsum⟩
  · exact .inl ⟨hquad.symm, hdeb.symm⟩
  · exact .inr ⟨hj, hi, fun id hid hid' => hacc id hid' hid, fun id hid hid' => hsum id hid' hid⟩

section commute
variable {i j : Instr} {s ti tij tj tji : State}

/-- An operation keeps the accumulators that an operation which shares no state with it takes. -/
theorem accumulators_kept_apart (h : shareNoState i j = true) (hx : exec j s = .next tj) (id : LaneId) :
    (takesAcc i = some id → (tj.lane id).acc = (s.lane id).acc) ∧
    (takesSum i = some id → (tj.lane id).sum = (s.lane id).sum) := by
  rcases shareNoState_iff.mp h with ⟨hi | hj, -⟩ | ⟨-, hj, hacc, hsum⟩
  · obtain ⟨-, hacc, hsum⟩ := takes_none_of_not_usesQuadrature hi
    simp [hacc, hsum]
  · rw [sameQuadrature_of_not_usesQuadrature hj hx id]
    exact ⟨fun _ => rfl, fun _ => rfl⟩
  · rw [lane_of_not_scan (not_scan_of_isCommand hj) hx]
    exact ⟨fun hid => if_neg (hacc id hid), fun hid => if_neg (hsum id hid)⟩

/-- An operation keeps the debounce half for an operation that shares no state with it and uses that half. -/
theorem sameDebounce_of_apart (h : shareNoState i j = true) (hi : usesDebounce i = true) (hx : exec j s = .next tj) :
    SameDebounce s tj := by
  refine sameDebounce_of_not_swupd ?_ hx
  rcases shareNoState_iff.mp h with ⟨-, hi' | hj⟩ | ⟨-, hj, -, -⟩
  · exact absurd (hi.symm.trans hi') Bool.false_ne_true.symm
  · rintro sw rfl
    exact Bool.false_ne_true hj.symm
  · exact not_swupd_of_isCommand hj

/-- A command answers the same before and after an operation that shares no state with it. -/
theorem rsp_of_apart (h : shareNoState i j = true) (hi : isCommand i = true) (hxi : exec i s = .next ti)
    (hxj : exec j s = .next tj) (hxji : exec i tj = .next tji) : tji.rsp = ti.rsp :=
  rsp_congr hi (fun id => (accumulators_kept_apart h hxj id).left) (fun id => (accumulators_kept_apart h hxj id).right)
    (fun hdeb => sameDebounce_of_apart h hdeb hxj) hxi hxji

variable (hxi : exec i s = .next ti) (hxij : exec j ti = .next tij) (hxj : exec j s = .next tj)
  (hxji : exec i tj = .next tji)
include hxi hxij hxj hxji

/-- An operation outside the quadrature half commutes with every other as to the lanes. -/
theorem sameQuadrature_comm_of_not_uses (hi : usesQuadrature i = false) : SameQuadrature tij tji := by
  intro id
  have hsame := sameQuadrature_of_not_usesQuadrature hi hxi
  rw [sameQuadrature_of_not_usesQuadrature hi hxji id, ← sameQuadrature_congr (exec_cfg hxi) hsame hxj hxij id]

/-- An operation other than SWUPD commutes with every other as to the debounce half. -/
theorem sameDebounce_comm_of_not_swupd (hi : ∀ sw, i ≠ .swupd sw) : SameDebounce tij tji :=
  have hsame := sameDebounce_of_not_swupd hi hxi
  sameDebounce_trans (sameDebounce_symm (sameDebounce_congr (exec_cfg hxi) hsame hxj hxij))
    (sameDebounce_of_not_swupd hi hxji)

/-- Operations that share no state commute as to the lanes. -/
theorem sameQuadrature_comm (h : shareNoState i j = true) : SameQuadrature tij tji := by
  rcases shareNoState_iff.mp h with ⟨hi | hj, -⟩ | ⟨hi, hj, -, -⟩
  · exact sameQuadrature_comm_of_not_uses hxi hxij hxj hxji hi
  · exact fun id => (sameQuadrature_comm_of_not_uses hxj hxji hxi hxij hj id).symm
  · intro id
    rw [lane_of_not_scan (not_scan_of_isCommand hi) hxji, lane_of_not_scan (not_scan_of_isCommand hj) hxj,
      lane_of_not_scan (not_scan_of_isCommand hj) hxij, lane_of_not_scan (not_scan_of_isCommand hi) hxi,
      clearTaken_comm]

/-- Operations that share no state commute as to the debounce half. -/
theorem sameDebounce_comm (h : shareNoState i j = true) : SameDebounce tij tji := by
  rcases swupd_or_not i with ⟨sw, rfl⟩ | hi
  · refine sameDebounce_symm (sameDebounce_comm_of_not_swupd hxj hxji hxi hxij ?_)
    rintro sw' rfl
    exact absurd h (by simp [shareNoState, usesDebounce, isCommand])
  · exact sameDebounce_comm_of_not_swupd hxi hxij hxj hxji hi

end commute

/-! ### The obligations -/

/-- Settles O25: each half is used by one of the two alone, or both clear accumulators of their own; so neither sees the
other in what it does or answers. -/
theorem operationsThatShareNoStateCommute : Obligations.OperationsThatShareNoStateCommute := by
  unfold Obligations.OperationsThatShareNoStateCommute
  intro i j s h
  obtain ⟨ti, hxi⟩ := exec_total i s
  obtain ⟨tij, hxij⟩ := exec_total j ti
  obtain ⟨tj, hxj⟩ := exec_total j s
  obtain ⟨tji, hxji⟩ := exec_total i tj
  have hcfg : tij.cfg = tji.cfg := by rw [exec_cfg hxij, exec_cfg hxi, exec_cfg hxji, exec_cfg hxj]
  have hpending : tij.pending = tji.pending := by
    rw [exec_pending hxij, exec_pending hxi, exec_pending hxji, exec_pending hxj]
  have hlanes := sameQuadrature_comm hxj hxji hxi hxij (shareNoState_symm h)
  have hdebounce := sameDebounce_comm hxj hxji hxi hxij (shareNoState_symm h)
  exact ⟨ti, tij, tj, tji, hxi, hxij, hxj, hxji, blockOf_eq_iff.mpr ⟨hcfg, hlanes, hdebounce⟩, hpending,
    fun hi => rsp_of_apart h hi hxi hxj hxji, fun hj => rsp_of_apart (shareNoState_symm h) hj hxj hxi hxij⟩

/-- Settles O18: the two states are the same block, and a command's response is made of the block alone. -/
theorem responsePortIsNeverRead : Obligations.ResponsePortIsNeverRead := by
  unfold Obligations.ResponsePortIsNeverRead
  intro i s t r hx
  obtain ⟨t', hx'⟩ := exec_total i { s with rsp := r }
  have hblock : ({ s with rsp := r } : State).blockOf = s.blockOf := rfl
  obtain ⟨-, hlanes, hdebounce⟩ := blockOf_eq_iff.mp hblock
  refine ⟨t', hx', blockOf_congr hblock hx hx', (exec_pending hx').trans (exec_pending hx).symm, fun hi => ?command,
    fun hi => ?other⟩
  case command =>
    exact ⟨rsp_congr hi (fun id _ => by rw [hlanes]) (fun id _ => by rw [hlanes]) (fun _ => hdebounce) hx hx',
      rsp_isSome_of_isCommand hi hx⟩
  case other => exact ⟨exec_rsp_of_not_command hi hx', exec_rsp_of_not_command hi hx⟩

theorem exec_sameSurround {i : Instr} {s t : State} (hx : exec i s = .next t) : SameSurround s t :=
  ⟨exec_cfg hx, exec_pending hx⟩

/-- Settles O59: each half of the state after an operation comes from that half before it, and so does the response. -/
theorem halvesShareNoState : Obligations.HalvesShareNoState := by
  unfold Obligations.HalvesShareNoState
  refine ⟨fun a b s => ?scan,
    fun o s s' t t' ho hcfg hlanes hx hx' => ?quadrature, fun o s s' t t' ho hcfg hsame hx hx' => ?debounce⟩
  case scan =>
    obtain ⟨t, hx⟩ := exec_total (.scan a b) s
    exact ⟨t, hx, sameDebounce_of_not_swupd (by simp) hx, exec_sameSurround hx, exec_rsp_of_not_command rfl hx⟩
  case quadrature =>
    have hdeb : usesDebounce o = false := by
      cases o with
      | scan | takeSteps | takeSum | takeBoth => rfl
      | _ => exact absurd ho Bool.false_ne_true
    have hswupd : ∀ sw, o ≠ .swupd sw := by
      rintro sw rfl
      exact Bool.false_ne_true ho
    exact ⟨sameQuadrature_congr hcfg.symm hlanes hx hx', sameDebounce_of_not_swupd hswupd hx, fun hc =>
      rsp_congr hc (fun id _ => by rw [hlanes]) (fun id _ => by rw [hlanes]) (by simp [hdeb]) hx hx'⟩
  case debounce =>
    have hquad : usesQuadrature o = false := by
      cases o with
      | swupd | rdStable | rdUp | rdDown => rfl
      | _ => exact absurd ho Bool.false_ne_true
    obtain ⟨-, hacc, hsum⟩ := takes_none_of_not_usesQuadrature hquad
    exact ⟨sameDebounce_congr hcfg.symm hsame hx hx', sameQuadrature_of_not_usesQuadrature hquad hx, fun hc =>
      rsp_congr hc (by simp [hacc]) (by simp [hsum]) (fun _ => hsame) hx hx'⟩

/-- Settles O30: a lane step reads its lane and its bits, and a take its lane. -/
theorem lanesAreIndependent : Obligations.LanesAreIndependent := by
  unfold Obligations.LanesAreIndependent
  refine ⟨fun a b a' b' s s' t t' i hcfg hlane ha hb hx hx' => ?scan, fun o s s' t t' i ho hlane hx hx' => ?take⟩
  case scan =>
    rw [lane_after_scan hx, lane_after_scan hx', hcfg, hlane]
    exact congrArg₂ (laneStep s'.cfg · · (s'.lane i)) ha hb
  case take =>
    have htake : isCommand o = true ∧ usesDebounce o = false ∧
        ∀ id, takesAcc o = some id ∨ takesSum o = some id → id = i := by
      rcases ho with rfl | rfl | rfl <;> simp [isCommand, usesDebounce, takesAcc, takesSum]
    obtain ⟨hc, hdeb, honly⟩ := htake
    have hscan := not_scan_of_isCommand hc
    refine ⟨by rw [lane_of_not_scan hscan hx, lane_of_not_scan hscan hx', hlane], ?response, fun j hj => ?others⟩
    case response =>
      exact rsp_congr hc (fun id hid => by rw [honly id (.inl hid), hlane])
        (fun id hid => by rw [honly id (.inr hid), hlane]) (by simp [hdeb]) hx' hx
    case others =>
      rw [lane_of_not_scan hscan hx,
        clearTaken_of_no_take (fun h => hj (honly j (.inl h))) (fun h => hj (honly j (.inr h)))]

/-- Settles O24: SCAN and SWUPD stay in their half, a take is a rewrite of its lane and the port, and every other
operation touches neither half. -/
theorem operationsWriteOnlyTheirElements : Obligations.OperationsWriteOnlyTheirElements := by
  unfold Obligations.OperationsWriteOnlyTheirElements
  intro i s t hx
  refine ⟨exec_sameSurround hx, ?_⟩
  cases i with
  | scan a b => exact ⟨sameDebounce_of_not_swupd (by simp) hx, exec_rsp_of_not_command rfl hx⟩
  | swupd sw => exact ⟨sameQuadrature_of_not_usesQuadrature rfl hx, exec_rsp_of_not_command rfl hx⟩
  | takeSteps id =>
    rw [exec_takeSteps_eq_putLane] at hx
    obtain rfl := next_inj hx
    exact ⟨sameDebounce_putLane s id _ _, State.putLane_lane_ne s id _ _, State.putLane_lane_self s id _ _⟩
  | takeSum id =>
    rw [exec_takeSum_eq_putLane] at hx
    obtain rfl := next_inj hx
    exact ⟨sameDebounce_putLane s id _ _, State.putLane_lane_ne s id _ _, State.putLane_lane_self s id _ _⟩
  | takeBoth id =>
    rw [exec_takeBoth_eq_putLane] at hx
    obtain rfl := next_inj hx
    exact ⟨sameDebounce_putLane s id _ _, State.putLane_lane_ne s id _ _, State.putLane_lane_self s id _ _⟩
  | _ => exact ⟨sameDebounce_of_not_swupd (by simp) hx, sameQuadrature_of_not_usesQuadrature rfl hx⟩

end Sys2Proof.Machine
end

section
/-!
Runs of clocks (30_encoding.md R71, 20_memory.md section 6): what operations, the begin of a clock and the reset pin
keep, every run keeps, and a run without reset is an operation trace; and the obligations about reset, clocks,
parameters and invariants.
-/

namespace Sys2Proof.Machine

/-! ### What every run keeps -/

/-- What every operation keeps, the strobes of a clock keep. -/
theorem strobe_keeps {P : State → Prop} (hop : ∀ i s t, exec i s = .next t → P s → P t) {w : Option OpWord}
    {s t : State} (hx : strobe w s = .next t) (h : P s) : P t := by
  cases w with
  | none => rwa [← next_inj hx]
  | some x => exact hop _ s t hx h

/-- What every operation, the begin of a clock and the reset pin keep, every step keeps. -/
theorem step_keeps {P : State → Prop} (hop : ∀ i s t, exec i s = .next t → P s → P t)
    (hbegin : ∀ s, P s → P (beginClock s)) (hreset : ∀ s, P s → P s.resetPin) {s t : State} (hx : step s = .next t)
    (h : P s) : P t := by
  rw [step] at hx
  cases hrst : (nextPins s).rst with
  | true =>
    rw [clock_of_rst hrst] at hx
    rw [← next_inj hx]
    exact hreset _ (hbegin s h)
  | false =>
    rw [clock_of_not_rst hrst] at hx
    obtain ⟨t2, hfirst, hswitch⟩ := andThen_eq_next.mp hx
    obtain ⟨t1, hcommand, hscan⟩ := andThen_eq_next.mp hfirst
    exact strobe_keeps hop hswitch (strobe_keeps hop hscan (strobe_keeps hop hcommand (hbegin s h)))

/-- What every step keeps, every run keeps. -/
theorem run_keeps {P : State → Prop} (hstep : ∀ s t, step s = .next t → P s → P t) {k : Nat} {s t : State}
    (hrun : Host.Core.run Sys2Proof.core k s = .next t) (h : P s) : P t := by
  induction k generalizing s with
  | zero => rwa [← (core_run_zero s t).mp hrun]
  | succ k ih =>
    obtain ⟨u, hx, hrest⟩ := (core_run_succ k s t).mp hrun
    exact ih hrest (hstep s u hx h)

/-- No step changes the parameters (R31, R192). -/
theorem step_cfg {s t : State} (hx : step s = .next t) : t.cfg = s.cfg :=
  step_keeps (P := fun u => u.cfg = s.cfg) (fun _ _ _ hop h => (exec_cfg hop).trans h) (fun _ h => h) (fun _ h => h)
    hx rfl

/-- Settles O17: neither an operation nor the reset pin writes the parameters. -/
theorem parametersNeverChange : Obligations.ParametersNeverChange := by
  unfold Obligations.ParametersNeverChange
  exact ⟨fun s t => step_cfg, fun k s t hrun =>
    run_keeps (P := fun u => u.cfg = s.cfg) (fun _ _ hx h => (step_cfg hx).trans h) hrun rfl⟩

/-! ### The invariants -/

/-- The lane invariants after an operation: a take clears, so R33.8 stays (R150, R151, R152). -/
theorem exec_laneInv {i : Instr} {s t : State} {id : LaneId} (hx : exec i s = .next t) (h : LaneInv s.cfg (s.lane id)) :
    LaneInv t.cfg (t.lane id) := by
  rw [exec_cfg hx]
  rcases scan_or_not i with ⟨a, b, rfl⟩ | hi
  · rw [lane_after_scan hx]
    exact laneStep_inv _ _ h
  · rw [lane_of_not_scan hi hx]
    obtain ⟨hidle, hcode, hnone⟩ := h
    refine ⟨hidle, hcode, fun hl => ?_⟩
    obtain ⟨hacc, hsum⟩ := hnone hl
    exact ⟨by simp [clearTaken, hacc], by simp [clearTaken, hsum]⟩

/-- The invariants of the debounce half are kept where that half and the parameters are (R33.3 to R33.7). -/
theorem Inv.of_sameDebounce {s t : State} (h : Inv s) (hcfg : t.cfg = s.cfg) (hsame : SameDebounce s t)
    (hlanes : ∀ i, LaneInv t.cfg (t.lane i)) : Inv t := by
  obtain ⟨hbuf, hwidx, hstable, hup, hdown⟩ := hsame
  exact {
    depth_pos := by rw [hcfg]; exact h.depth_pos
    buf_full := by rw [hbuf, hcfg]; exact h.buf_full
    lanes_inv := hlanes
    widx_slot := by rw [hwidx, hcfg]; exact h.widx_slot
    stable_or := by rw [hstable, hbuf]; exact h.stable_or
    up_down := by rw [hup, hdown]; exact h.up_down
    up_stable := by rw [hup, hstable]; exact h.up_stable
    down_stable := by rw [hdown, hstable]; exact h.down_stable }

/-- A SWUPD keeps the invariants: the index stays a slot and the masks are computed from each other (R101 to R104). -/
theorem Inv.swupd {s : State} (h : Inv s) (sw : Mask) : Inv (updateStable (pushSample sw s)) where
  depth_pos := h.depth_pos
  buf_full := by rw [updateStable_buf, pushSample_buf, List.length_set]; exact h.buf_full
  lanes_inv := h.lanes_inv
  widx_slot := Nat.mod_lt _ h.depth_pos
  stable_or := rfl
  up_down := upEdges_and_downEdges _ _
  up_stable := upEdges_and_stable _ _
  down_stable := downEdges_and_not_stable _ _

theorem exec_inv {i : Instr} {s t : State} (hx : exec i s = .next t) (h : Inv s) : Inv t := by
  rcases exec_debounce_cases hx with ⟨sw, rfl, rfl⟩ | ⟨-, hsame⟩
  · exact h.swupd sw
  · exact h.of_sameDebounce (exec_cfg hx) hsame fun id => exec_laneInv hx (h.lanes_inv id)

/-- A reset lane has accumulated nothing and latched nothing (R191). -/
theorem laneInv_reset (c : Config) : LaneInv c Lane.reset := ⟨Nat.zero_le _, latchCode_ne _, fun _ => ⟨rfl, rfl⟩⟩

/-- The reset state meets the invariants where the buffer has a slot (R190, R191). -/
theorem Inv.reset {c : Config} (hc : c.wf = true) : Inv (State.resetWith c) where
  depth_pos := of_decide_eq_true hc
  buf_full := List.length_replicate
  lanes_inv i := by rw [State.resetWith_lane]; exact laneInv_reset c
  widx_slot := of_decide_eq_true hc
  stable_or := (orAll_replicate_zero _).symm
  up_down := BitVec.zero_and
  up_stable := BitVec.zero_and
  down_stable := BitVec.zero_and

/-- What is pending has no part in the invariants. -/
theorem Inv.pending {s : State} (h : Inv s) (ps : List Pins) : Inv { s with pending := ps } :=
  h.of_sameDebounce rfl (sameDebounce_refl s) h.lanes_inv

theorem step_inv {s t : State} (hx : step s = .next t) (h : Inv s) : Inv t :=
  step_keeps (fun _ _ _ => exec_inv) (fun s h => h.of_sameDebounce rfl (sameDebounce_refl s) h.lanes_inv)
    (fun s h => (Inv.reset (decide_eq_true h.depth_pos)).pending s.pending) hx h

/-- Settles O20: every element is zero, and the built block has ten slots. -/
theorem invariantsHoldAtReset : Obligations.InvariantsHoldAtReset := by
  unfold Obligations.InvariantsHoldAtReset
  exact ⟨Inv.reset rfl, fun c => Inv.reset⟩

/-- Settles O21: a SWUPD keeps the debounce half's invariants, every other operation keeps that half, and all of them
keep the lanes' invariants. -/
theorem everyOperationKeepsInvariants : Obligations.EveryOperationKeepsInvariants := by
  unfold Obligations.EveryOperationKeepsInvariants
  exact fun i s t h hx => exec_inv hx h

/-- Settles O22: operations, the begin of a clock and the reset pin keep the invariants, so every step and every run
from reset does. -/
theorem everyStepKeepsInvariants : Obligations.EveryStepKeepsInvariants := by
  unfold Obligations.EveryStepKeepsInvariants
  exact ⟨fun s t h hx => step_inv hx h, fun c ps k t hc hrun =>
    run_keeps (fun _ _ => step_inv) hrun ((Inv.reset hc).pending ps)⟩

/-! ### The derived widths -/

/-- `ceil(log2 n)` is the least number of bits that hold `n` values (R6). -/
theorem ceilLog2_le_iff (n k : Nat) : ceilLog2 n ≤ k ↔ n ≤ 2 ^ k := by
  unfold ceilLog2
  split
  case isTrue h => exact ⟨fun _ => h.trans Nat.one_le_two_pow, fun _ => Nat.zero_le k⟩
  case isFalse h =>
    have hlog := Nat.log2_lt (n := n - 1) (k := k) (by omega)
    omega

/-- Settles O23: each width is the least one, and at least 1, that holds its bound. -/
theorem countersFitTheirDerivedWidths : Obligations.CountersFitTheirDerivedWidths := by
  unfold Obligations.CountersFitTheirDerivedWidths
  intro s h
  have hfit (n : Nat) : n ≤ 2 ^ max 1 (ceilLog2 n) := (ceilLog2_le_iff _ _).mp (Nat.le_max_right _ _)
  refine ⟨fun i => ?idle, ?widx, fun n hn hceil => ?idleLeast, fun n hn hdepth => ?widxLeast⟩
  case idle =>
    obtain ⟨hidle, -, -⟩ := h.lanes_inv i
    exact Nat.lt_of_lt_of_le (Nat.lt_succ_of_le hidle) (hfit _)
  case widx => exact Nat.lt_of_lt_of_le h.widx_slot (hfit _)
  case idleLeast => exact Nat.max_le.mpr ⟨hn, (ceilLog2_le_iff _ _).mpr hceil⟩
  case widxLeast => exact Nat.max_le.mpr ⟨hn, (ceilLog2_le_iff _ _).mpr hdepth⟩

/-! ### Clocks as traces -/

/-- A strobe runs the operation it calls for, where it calls for one. -/
theorem strobe_eq_runTrace {α : Type} (f : α → OpWord) (w : Option α) (s : State) :
    strobe (w.map f) s = runTrace (w.map fun x => decode (f x)).toList s := by
  cases w with
  | none => rfl
  | some x =>
    obtain ⟨t, hx⟩ := exec_total (decode (f x)) s
    simp [hx]

/-- The strobes of a clock run the operations they call for, in their order (R174). -/
theorem strobes_eq_runTrace (p : Pins) (s : State) : strobes p s = runTrace (opsOfPins p) s := by
  rw [opsOfPins, runTrace_append, runTrace_append, strobes, strobe_eq_runTrace,
    funext (strobe_eq_runTrace OpWord.scan p.scan),
    funext (strobe_eq_runTrace OpWord.switch p.switch)]

/-- A trace does the same to the same block. -/
theorem runTrace_blockOf_congr {ops : List Instr} {s s' t t' : State} (h : s'.blockOf = s.blockOf)
    (hrun : runTrace ops s = .next t) (hrun' : runTrace ops s' = .next t') : t'.blockOf = t.blockOf := by
  induction ops generalizing s s' with
  | nil => rwa [← next_inj hrun, ← next_inj hrun']
  | cons i is ih =>
    obtain ⟨u, hx, hrest⟩ := andThen_eq_next.mp hrun
    obtain ⟨u', hx', hrest'⟩ := andThen_eq_next.mp hrun'
    exact ih (blockOf_congr h hx hx') hrest hrest'

theorem runTrace_pending {ops : List Instr} {s t : State} (hrun : runTrace ops s = .next t) :
    t.pending = s.pending := by
  induction ops generalizing s with
  | nil => rw [next_inj hrun]
  | cons i is ih =>
    obtain ⟨u, hx, hrest⟩ := andThen_eq_next.mp hrun
    exact (ih hrest).trans (exec_pending hx)

/-- A step whose pins are pending and have `rst` low is the trace of the operations they call for. -/
theorem step_of_pending {s : State} {p : Pins} {rest : List Pins} (hpending : s.pending = p :: rest)
    (hrst : p.rst = false) : step s = runTrace (opsOfPins p) (beginClock s) := by
  rw [step, nextPins_cons hpending, clock_of_not_rst hrst, strobes_eq_runTrace]

/-- Settles O19: each step is the trace of its clock's operations from the same block, and what it leaves pending is the
clocks after it. -/
theorem clockRunsAreOperationTraces : Obligations.ClockRunsAreOperationTraces := by
  unfold Obligations.ClockRunsAreOperationTraces
  intro ps
  induction ps with
  | nil => exact fun s _ hpending => ⟨s, s, rfl, rfl, rfl, hpending⟩
  | cons p ps ih =>
    intro s hrst hpending
    rw [List.forall_mem_cons] at hrst
    obtain ⟨m, hm⟩ := runTrace_total (opsOfPins p) (beginClock s)
    have hstep : step s = .next m := (step_of_pending hpending hrst.left).trans hm
    have hrest : m.pending = ps := by rw [runTrace_pending hm, State.beginClock_pending, hpending, List.tail_cons]
    obtain ⟨t, u, hrun, htrace, hblock, hdone⟩ := ih m hrst.right hrest
    obtain ⟨v, hv⟩ := runTrace_total ((p :: ps).flatMap opsOfPins) s
    have hclock : runTrace ((p :: ps).flatMap opsOfPins) (beginClock s) = .next u := by
      rw [List.flatMap_cons, runTrace_append, hm, andThen_next, htrace]
    have hbegin : (beginClock s).blockOf = s.blockOf := rfl
    exact ⟨t, v, (core_run_succ ps.length s t).mpr ⟨m, hstep, hrun⟩, hv,
      hblock.trans (runTrace_blockOf_congr hbegin hv hclock), hdone⟩

/-! ### Reset and single clocks -/

/-- Settles O11: every element is read off the reset state. -/
theorem resetStateIsAllZero : Obligations.ResetStateIsAllZero := by
  unfold Obligations.ResetStateIsAllZero
  refine ⟨rfl, fun c => ⟨fun i => ?lane, List.length_replicate, fun k hk => ?slot, rfl, rfl, rfl, rfl⟩⟩
  case lane =>
    rw [State.resetWith_lane]
    exact ⟨rfl, rfl, rfl, rfl, rfl, rfl⟩
  case slot => simp [State.bufRead, hk]

/-- Settles O12: the step is the reset pin's effect on the state whose pins have been taken. -/
theorem resetPinResetsEveryElement : Obligations.ResetPinResetsEveryElement := by
  unfold Obligations.ResetPinResetsEveryElement
  intro s p rest hpending hrst
  have hstep : step s = .next (beginClock s).resetPin := by
    rw [step, nextPins_cons hpending, clock_of_rst hrst]
  exact ⟨_, hstep, fun i => State.resetPin_lane _ i, rfl, rfl, rfl, rfl, rfl, rfl, rfl,
    by rw [State.resetPin_pending, State.beginClock_pending, hpending, List.tail_cons]⟩

/-- A step whose pins have exactly one strobe high runs the operation of its word (R71). -/
theorem step_of_pinsOf {s : State} {x : OpWord} {rest : List Pins} (hpending : s.pending = pinsOf x :: rest) :
    step s = exec (decode x) { s with rsp := none, pending := rest } := by
  have hbegin : beginClock s = { s with rsp := none, pending := rest } := by rw [beginClock, hpending, List.tail_cons]
  rw [step, nextPins_cons hpending, clock_pinsOf, hbegin]

/-- Settles O13: a word that has a decoding is presented, and presented pins are the next to be taken. -/
theorem stepRunsTheDecodedOperation : Obligations.StepRunsTheDecodedOperation := by
  unfold Obligations.StepRunsTheDecodedOperation
  refine ⟨fun s x rest => step_of_pinsOf, fun s nbits w i hdecode => ?placed⟩
  case placed =>
    rw [decodeTableWord] at hdecode
    rw [State.withFetchWord]
    cases hword : wordOfBits nbits w with
    | error e => simp [hword] at hdecode
    | ok x =>
      have hi : decode x = i := by simpa [hword] using hdecode
      rw [← hi]
      exact step_of_pinsOf rfl

/-- Settles O15: the clock's pins are quiet in either case, and a quiet clock runs nothing. -/
theorem quietClockHoldsTheState : Obligations.QuietClockHoldsTheState := by
  unfold Obligations.QuietClockHoldsTheState
  intro s hquiet
  have hpins : nextPins s = Pins.quiet := by
    rcases hquiet with hnil | ⟨rest, hcons⟩
    · exact nextPins_nil hnil
    · exact nextPins_cons hcons
  exact ⟨beginClock s, by rw [step, hpins]; rfl, rfl, rfl⟩

end Sys2Proof.Machine
end

section
/-!
The hysteresis filter over several events (41_quadrature_scan.md section 4): rejected and accepted events, what lies
between two events, and the obligations about reversals, chatter and the parameters' corner cases.
-/

namespace Sys2Proof.Machine

/-! ### One event -/

/-- An event fails the filter exactly when it is early and not in the latched direction (R128). -/
theorem not_accepts_iff (c : Config) (d : Dir) (l : Lane) :
    accepts c d l = false ↔ cycles l < c.T ∧ l.latch ≠ latchOf d := by
  rw [← Bool.not_eq_true, accepts_iff, not_or, Nat.not_le]

section event
variable {id : LaneId} {d : Dir} {i : Instr} {s t : State} (he : eventOf id i s = some d)
include he

/-- An event is lost exactly when it fails the filter (R128, R132). -/
theorem acceptedEvent_eq_none_iff : acceptedEvent id i s = none ↔ accepts s.cfg d (s.lane id) = false := by
  simp [acceptedEvent, he]

/-- An event is accepted exactly when it passes the filter (R128). -/
theorem acceptedEvent_eq_self_iff : acceptedEvent id i s = some d ↔ accepts s.cfg d (s.lane id) = true := by
  rw [acceptedEvent_eq_some, and_iff_right he]

/-- An event that fails the filter leaves the accumulators (R132). -/
theorem accumulators_of_rejected (hreject : accepts s.cfg d (s.lane id) = false) (hx : exec i s = .next t) :
    (t.lane id).acc = (s.lane id).acc ∧ (t.lane id).sum = (s.lane id).sum := by
  obtain ⟨-, -, hacc, hsum⟩ := lane_after_event he hx
  rw [hacc, hsum, hreject]
  exact ⟨rfl, rfl⟩

/-- An event that passes the filter adds its step and its cycles (R129). -/
theorem accumulators_of_accepted (haccept : accepts s.cfg d (s.lane id) = true) (hx : exec i s = .next t) :
    (t.lane id).acc = addStep (s.lane id).acc d ∧ (t.lane id).sum = addCycles (s.lane id).sum (cycles (s.lane id)) := by
  obtain ⟨-, -, hacc, hsum⟩ := lane_after_event he hx
  rw [hacc, hsum, haccept]
  exact ⟨rfl, rfl⟩

end event

/-! ### Between two events -/

/-- The idle counter after an operation without an event of the lane: a SCAN counts, up to the ceiling (R126), and no
other operation writes it. -/
theorem idle_of_no_event {i : Instr} {s t : State} {id : LaneId} (h : eventOf id i s = none) (hx : exec i s = .next t) :
    (scansIn [i] = 0 ∧ (t.lane id).idle = (s.lane id).idle) ∨
    (scansIn [i] = 1 ∧ (t.lane id).idle = min ((s.lane id).idle + 1) s.cfg.C) := by
  rcases scan_or_not i with ⟨a, b, rfl⟩ | hi
  · exact .inr ⟨rfl, by rw [lane_after_quiet_scan h hx]⟩
  · have hnone : scansIn [i] = 0 := by
      cases i with
      | scan a b => exact absurd rfl (hi a b)
      | _ => rfl
    exact .inl ⟨hnone, by rw [lane_of_not_scan hi hx, clearTaken]⟩

/-- The SCANs of a trace are its first operation's and the others'. -/
theorem scansIn_cons (i : Instr) (is : List Instr) : scansIn (i :: is) = scansIn [i] + scansIn is :=
  List.countP_append (l₁ := [i]) (l₂ := is)

/-- Along a trace without an event of the lane the latch stays, and the idle counter counts the SCANs up to the
ceiling. -/
theorem lane_of_quiet_trace {id : LaneId} {ops : List Instr} {s t : State}
    (hquiet : everyOp (fun o x => eventOf id o x = none) ops s) (hrun : runTrace ops s = .next t) :
    (t.lane id).latch = (s.lane id).latch ∧ ((s.lane id).idle ≤ s.cfg.C →
      (t.lane id).idle = min ((s.lane id).idle + scansIn ops) s.cfg.C) := by
  induction ops generalizing s with
  | nil =>
    rw [next_inj hrun]
    exact ⟨rfl, fun hle => (Nat.min_eq_left hle).symm⟩
  | cons i is ih =>
    obtain ⟨u, hx, hrest⟩ := andThen_eq_next.mp hrun
    obtain ⟨hi, his⟩ := hquiet
    rw [hx] at his
    obtain ⟨hlatch, hidle⟩ := ih his hrest
    refine ⟨hlatch.trans (latch_of_no_event hx hi), fun hle => ?_⟩
    have hone := idle_of_no_event hi hx
    rw [exec_cfg hx] at hidle
    rw [hidle (by omega), scansIn_cons]
    omega

/-- The parameters after a trace are those before it (R31). -/
theorem runTrace_cfg {ops : List Instr} {s t : State} (hrun : runTrace ops s = .next t) : t.cfg = s.cfg := by
  induction ops generalizing s with
  | nil => rw [next_inj hrun]
  | cons i is ih =>
    obtain ⟨u, hx, hrest⟩ := andThen_eq_next.mp hrun
    exact (ih hrest).trans (exec_cfg hx)

/-! ### The obligations about one event -/

/-- Settles O9: the codes are read off, and a match is the latch being the direction. -/
theorem latchCodeEqualityIsTheMatch : Obligations.LatchCodeEqualityIsTheMatch := by
  unfold Obligations.LatchCodeEqualityIsTheMatch
  refine ⟨⟨rfl, rfl, rfl⟩, fun d x => ⟨?code, latchMatches_iff d x⟩⟩
  case code => cases d <;> cases x <;> decide

/-- Settles O29: the accumulators of an accepted event, whose cycles the ceiling bounds, wrap at most once. -/
theorem accumulatorsWrapAtTheEnds : Obligations.AccumulatorsWrapAtTheEnds := by
  unfold Obligations.AccumulatorsWrapAtTheEnds
  intro a b s t i d hinv hx he
  obtain ⟨hevent, haccept⟩ := acceptedEvent_eq_some.mp he
  obtain ⟨hacc, hsum⟩ := accumulators_of_accepted hevent haccept hx
  obtain ⟨hidle, -, -⟩ := hinv.lanes_inv i
  have hcycles : cycles (s.lane i) ≤ s.cfg.C + 1 := Nat.succ_le_succ hidle
  have hceil : s.cfg.C < 65535 := s.cfg.idleCeiling.isLt
  have hlt := (s.lane i).sum.isLt
  rw [hacc, hsum, addStep_toInt, addCycles_toNat]
  refine ⟨?top, ?bottom, fun hlo hhi => ?exact, Nat.le_add_left 1 _, hcycles, ?total⟩
  case top => rintro rfl htop; rw [htop]; rfl
  case bottom => rintro rfl hbottom; rw [hbottom]; rfl
  case exact => exact Int.bmod_eq_of_le (by omega) (by omega)
  case total => split <;> omega

/-- Settles O32: an event clears the counter, a command leaves it, and any other SCAN leaves it above 0 where the
ceiling admits that. -/
theorem idleCounterIsClearedByEventsAlone : Obligations.IdleCounterIsClearedByEventsAlone := by
  unfold Obligations.IdleCounterIsClearedByEventsAlone
  intro i s t id hx
  refine ⟨fun hevent => ?event, fun hi => ?command, fun hinv hrunning hzero hnone => ?cleared⟩
  case event =>
    obtain ⟨d, he⟩ := Option.ne_none_iff_exists'.mp hevent
    obtain ⟨-, hidle, -⟩ := lane_after_event he hx
    exact hidle
  case command => rw [lane_of_not_scan (not_scan_of_isCommand hi) hx, clearTaken]
  case cleared =>
    obtain ⟨hle, -, -⟩ := hinv.lanes_inv id
    have hidle := idle_of_no_event hnone hx
    omega

/-- Settles O34: with `T <= 1` the cycles of every event reach the timeout, with `T > C + 1` those of none do; and an
event leaves its direction in the latch. -/
theorem degenerateTimeouts : Obligations.DegenerateTimeouts := by
  unfold Obligations.DegenerateTimeouts
  intro i s id d he
  rw [acceptedEvent_eq_self_iff he, accepts_iff]
  refine ⟨fun hT => .inl (hT.trans (Nat.le_add_left 1 _)), fun hinv hT => ⟨?byMatch, fun j t hx hj => ?second⟩⟩
  case byMatch =>
    obtain ⟨hle, -, -⟩ := hinv.lanes_inv id
    exact or_iff_right (Nat.not_le.mpr (Nat.lt_of_le_of_lt (Nat.succ_le_succ hle) hT))
  case second =>
    obtain ⟨hlatch, -⟩ := lane_after_event he hx
    rw [acceptedEvent_eq_self_iff hj, accepts_iff]
    exact .inr hlatch

/-! ### The obligations about two events -/

/-- Settles O35: the early event leaves its direction in the latch, no operation without an event of the lane writes
the latch, and so the next event of that direction matches. -/
theorem rejectedReversalPrimesTheNextStep : Obligations.RejectedReversalPrimesTheNextStep := by
  unfold Obligations.RejectedReversalPrimesTheNextStep
  intro id d i between j s t u v he hlatch hearly hx hquiet hrun hj hxj
  obtain ⟨hacc, hsum⟩ := accumulators_of_rejected he ((not_accepts_iff _ _ _).mpr ⟨hearly, hlatch⟩) hx
  obtain ⟨hturned, -⟩ := lane_after_event he hx
  have hmatch : (u.lane id).latch = latchOf d := (lane_of_quiet_trace hquiet hrun).left.trans hturned
  exact ⟨⟨hacc, hsum, hturned⟩, accumulators_of_accepted hj ((accepts_iff _ _ _).mpr (.inr hmatch)) hxj⟩

/-- Settles O36: both events are early and against the latch each finds, and the second turns the latch back. -/
theorem glitchPairLeavesTheAccumulators : Obligations.GlitchPairLeavesTheAccumulators := by
  unfold Obligations.GlitchPairLeavesTheAccumulators
  intro id d e i j s t u hT hde hlatch hearly hi hx hj hxj
  have hfirst : accepts s.cfg d (s.lane id) = false :=
    (not_accepts_iff _ _ _).mpr ⟨hearly, fun h => hde (latchOf_injective (hlatch.symm.trans h)).symm⟩
  obtain ⟨hturned, hidle, -⟩ := lane_after_event hi hx
  have hsecond : accepts t.cfg e (t.lane id) = false := by
    refine (not_accepts_iff _ _ _).mpr ⟨?early, fun h => hde (latchOf_injective (hturned.symm.trans h))⟩
    case early => rw [cycles, hidle, exec_cfg hx]; exact hT
  obtain ⟨hacc, hsum⟩ := accumulators_of_rejected hi hfirst hx
  obtain ⟨hacc', hsum'⟩ := accumulators_of_rejected hj hsecond hxj
  obtain ⟨hback, -⟩ := lane_after_event hj hxj
  exact ⟨hacc'.trans hacc, hsum'.trans hsum, hback.trans hlatch.symm⟩

/-- Settles O37: between the two events the counter counts the SCANs up to the ceiling and the latch stays, so the
second event fails the filter exactly when its cycles, `min n C + 1`, are below the timeout. -/
theorem reversalIsLostOnlyWithoutQuiescence : Obligations.ReversalIsLostOnlyWithoutQuiescence := by
  unfold Obligations.ReversalIsLostOnlyWithoutQuiescence
  have hlost (id : LaneId) (d : Dir) (i : Instr) (s : State) (he : eventOf id i s = some d)
      (hlatch : (s.lane id).latch ≠ latchOf d) : acceptedEvent id i s = none ↔ (s.lane id).idle + 1 < s.cfg.T := by
    rw [acceptedEvent_eq_none_iff he, not_accepts_iff, and_iff_left hlatch, cycles]
  refine ⟨hlost, fun id d e i j between s t u hde he hx hquiet hrun hj => ?_⟩
  obtain ⟨hlatched, hzero, -⟩ := lane_after_event he hx
  obtain ⟨hkept, hcount⟩ := lane_of_quiet_trace hquiet hrun
  have hidle : (u.lane id).idle = min (scansIn between) s.cfg.C := by
    rw [hcount (hzero ▸ Nat.zero_le _), hzero, Nat.zero_add, exec_cfg hx]
  have hagainst : (u.lane id).latch ≠ latchOf d := fun h =>
    hde (latchOf_injective ((hkept.trans hlatched).symm.trans h)).symm
  have hsecond := hlost id d j u hj hagainst
  rw [hidle, runTrace_cfg hrun, exec_cfg hx] at hsecond
  obtain ⟨v, hxj⟩ := exec_total j u
  obtain ⟨hturned, -⟩ := lane_after_event hj hxj
  refine ⟨fun hceil => by rw [hsecond]; omega, fun hceil => hsecond.mpr (by omega), v, hxj, hturned,
    fun hnone => ?rejected, fun hsome => ?accepted⟩
  case rejected => exact accumulators_of_rejected hj ((acceptedEvent_eq_none_iff hj).mp hnone) hxj
  case accepted =>
    have haccept : accepts u.cfg d (u.lane id) = true :=
      eq_true_of_ne_false fun h => hsome ((acceptedEvent_eq_none_iff hj).mpr h)
    obtain ⟨hacc, hsum⟩ := accumulators_of_accepted hj haccept hxj
    rw [hacc, hsum, addStep_toInt, addCycles_toNat, cycles, hidle]
    exact ⟨rfl, rfl⟩

end Sys2Proof.Machine
end

section
/-!
SCAN by its transition table (30_encoding.md section 4): the default table, the same word twice, chatter between two
states, and the first SCAN after reset.
-/

namespace Sys2Proof.Machine

/-! ### The default table -/

/-- A class is directional when it is neither of the other two. -/
theorem exists_directional_iff (r : ResultClass) : (∃ d, r = .directional d) ↔ r ≠ .idle ∧ r ≠ .ambiguous := by
  cases r <;> simp

/-- Settles O8: both parts are evaluated, over the sixteen keys. -/
theorem defaultTableCountsEveryEdge : Obligations.DefaultTableCountsEveryEdge := by
  unfold Obligations.DefaultTableCountsEveryEdge
  refine ⟨by decide, ?symmetries⟩
  case symmetries =>
    simp only [exists_directional_iff]
    decide

/-! ### The same word twice -/

/-- The key of a lane whose samples have not changed is 0, 5, 10 or 15 (R73). -/
theorem laneKey_unchanged (l : Lane) : (laneKey l l.pa l.pb).toNat ∈ [0, 5, 10, 15] := by
  rw [keyIsPreviousThenCurrent]
  cases l.pa <;> cases l.pb <;> decide

/-- Settles O33: the first SCAN stores its samples, so the second finds the key of an unchanged lane. -/
theorem sameScanWordTwiceIsIdle : Obligations.SameScanWordTwiceIsIdle := by
  unfold Obligations.SameScanWordTwiceIsIdle
  intro a b s t hx htable
  obtain ⟨u, hxu⟩ := exec_total (.scan a b) t
  refine ⟨u, hxu, fun i => ?lane, sameDebounce_of_not_swupd (by simp) hxu, exec_sameSurround hxu,
    exec_rsp_of_not_command rfl hxu⟩
  case lane =>
    obtain ⟨hpa, hpb⟩ := laneStep_samples s.cfg (laneBit a i) (laneBit b i) (s.lane i)
    rw [← lane_after_scan hx] at hpa hpb
    have hidle : classOf (laneResult t.cfg (t.lane i).pa (t.lane i).pb (t.lane i)) = .idle := by
      rw [exec_cfg hx]
      exact htable _ (laneKey_unchanged (t.lane i))
    rw [lane_after_scan hxu, ← hpa, ← hpb, laneStep_of_quiet (by simp [hidle]), exec_cfg hx]

/-! ### Chatter -/

/-- An early event against the latch turns the latch and is otherwise lost (R130, R132). -/
theorem laneStep_early_reversal {c : Config} {ca cb : Bool} {l : Lane} {d : Dir}
    (hd : classOf (laneResult c ca cb l) = .directional d) (hT : 2 ≤ c.T) (hidle : l.idle = 0)
    (hlatch : l.latch ≠ latchOf d) : laneStep c ca cb l = { l with pa := ca, pb := cb, latch := latchOf d } := by
  have hreject : accepts c d l = false := (not_accepts_iff c d l).mpr ⟨by rw [cycles, hidle]; exact hT, hlatch⟩
  rw [laneStep_of_event hd, hreject, ← hidle]
  rfl

/-- What a part of a trace keeps, any number of repetitions of it keep. -/
theorem runTrace_repeat_keeps {P : State → Prop} {ops : List Instr}
    (hkeep : ∀ s t, runTrace ops s = .next t → P s → P t) (n : Nat) {s t : State}
    (hrun : runTrace (List.replicate n ops).flatten s = .next t) (h : P s) : P t := by
  induction n generalizing s with
  | zero => rwa [← next_inj hrun]
  | succ n ih =>
    rw [List.replicate_succ, List.flatten_cons, runTrace_append] at hrun
    obtain ⟨u, hfirst, hrest⟩ := andThen_eq_next.mp hrun
    exact ih hrest (hkeep s u hfirst h)

/-- The block has the parameters `c`, and its lane `id` is `l` but for a latch that is not the direction `d`. -/
def ChattersAs (id : LaneId) (c : Config) (l : Lane) (d : Dir) (s : State) : Prop :=
  s.cfg = c ∧ ∃ x, x ≠ latchOf d ∧ s.lane id = { l with latch := x }

/-- An early event of direction `d` and an early one back leave the lane but for its latch, which is not `d` again. -/
theorem chattersAs_of_two_scans {id : LaneId} {c : Config} {l : Lane} {d e : Dir} {a b a' b' : Mask} (hT : 2 ≤ c.T)
    (hde : d ≠ e) (hidle : l.idle = 0) (hpa : l.pa = laneBit a' id) (hpb : l.pb = laneBit b' id)
    (hd : classOf (laneResult c (laneBit a id) (laneBit b id) l) = .directional d)
    (he : classOf (laneResult c (laneBit a' id) (laneBit b' id) { l with pa := laneBit a id, pb := laneBit b id }) =
      .directional e)
    {s t : State} (hrun : runTrace [.scan a b, .scan a' b'] s = .next t) (h : ChattersAs id c l d s) :
    ChattersAs id c l d t := by
  obtain ⟨hcfg, x, hx, hlane⟩ := h
  obtain ⟨u, hfirst, hrest⟩ := andThen_eq_next.mp hrun
  obtain ⟨v, hsecond, hlast⟩ := andThen_eq_next.mp hrest
  obtain rfl := next_inj hlast
  have hu : u.lane id = { l with pa := laneBit a id, pb := laneBit b id, latch := latchOf d } := by
    rw [lane_after_scan hfirst, hcfg, hlane, laneStep_early_reversal (l := { l with latch := x }) hd hT hidle hx]
  have hback : latchOf d ≠ latchOf e := fun heq => hde (latchOf_injective heq)
  refine ⟨by rw [exec_cfg hsecond, exec_cfg hfirst, hcfg], latchOf e, hback.symm, ?_⟩
  rw [lane_after_scan hsecond, exec_cfg hfirst, hcfg, hu, laneStep_early_reversal
    (l := { l with pa := laneBit a id, pb := laneBit b id, latch := latchOf d }) he hT hidle hback, ← hpa, ← hpb]

/-- Settles O38: each repetition is an early event and an early one back, which turn the latch and nothing else. -/
theorem chatterNeverMovesTheAccumulators : Obligations.ChatterNeverMovesTheAccumulators := by
  unfold Obligations.ChatterNeverMovesTheAccumulators
  intro id d e a b a' b' s n hT hde hidle hlatch hpa hpb hd he
  obtain ⟨t, hrun⟩ := runTrace_total (List.replicate n [Instr.scan a b, Instr.scan a' b']).flatten s
  have hstart : ChattersAs id s.cfg (s.lane id) d s := ⟨rfl, _, hlatch, rfl⟩
  obtain ⟨-, x, -, hlane⟩ := runTrace_repeat_keeps
    (fun _ _ => chattersAs_of_two_scans hT hde hidle hpa hpb hd he) n hrun hstart
  exact ⟨t, hrun, by rw [hlane], by rw [hlane], by rw [hlane]; exact hidle⟩

/-! ### The first SCAN after reset -/

section reset
variable {c : Config} (htable : c.qtable = defaultQTable)
include htable

/-- The result of a lane that believes its encoder at 00, by the two bits that it is at (R191, R75). -/
theorem laneResult_reset (ca cb : Bool) :
    laneResult c ca cb Lane.reset = defaultQTable.get (laneKey Lane.reset ca cb).toFin := by
  rw [laneResult, tableRead, htable]

/-- The first SCAN of an encoder that is one step away: its event matches no latch, and it is early unless `T <= 1`. -/
theorem laneStep_reset_of_event {ca cb : Bool} {d : Dir}
    (hd : classOf (defaultQTable.get (laneKey Lane.reset ca cb).toFin) = .directional d) :
    laneStep c ca cb Lane.reset =
      if 2 ≤ c.T then { Lane.reset with pa := ca, pb := cb, latch := latchOf d }
      else { Lane.reset with pa := ca, pb := cb, latch := latchOf d, acc := addStep 0#8 d, sum := 1#16 } := by
  rw [← laneResult_reset htable] at hd
  split
  case isTrue hT => exact laneStep_early_reversal hd hT rfl (latchOf_ne_none d).symm
  case isFalse hT =>
    have haccept : accepts c d Lane.reset = true := (accepts_iff _ _ _).mpr (.inl (by rw [cycles, Lane.reset]; omega))
    rw [laneStep_of_event hd, haccept]
    rfl

/-- The first SCAN of an encoder that is at 00, or two steps away, is an idle scan. -/
theorem laneStep_reset_of_quiet {ca cb : Bool}
    (h : classOf (defaultQTable.get (laneKey Lane.reset ca cb).toFin) = .idle ∨
      classOf (defaultQTable.get (laneKey Lane.reset ca cb).toFin) = .ambiguous) :
    laneStep c ca cb Lane.reset = { Lane.reset with pa := ca, pb := cb, idle := min 1 c.C } := by
  have hquiet (d : Dir) : classOf (laneResult c ca cb Lane.reset) ≠ .directional d := by
    rw [laneResult_reset htable]
    rcases h with h | h <;> simp [h]
  rw [laneStep_of_quiet hquiet]
  rfl

end reset

/-- Settles O39: 00 and 11 are idle scans of a reset lane, 10 and 01 its first events. -/
theorem firstScanAfterResetComparesWithZero : Obligations.FirstScanAfterResetComparesWithZero := by
  unfold Obligations.FirstScanAfterResetComparesWithZero
  intro c a b htable
  obtain ⟨t, hx, hlane⟩ := exec_scan_lane a b (State.resetWith c)
  refine ⟨t, hx, fun i => ?_⟩
  rw [hlane, State.resetWith_lane, State.resetWith_cfg]
  split
  next ha hb => rw [ha, hb]; exact laneStep_reset_of_quiet htable (by decide)
  next ha hb => rw [ha, hb]; exact laneStep_reset_of_event htable (d := .forward) (by decide)
  next ha hb => rw [ha, hb]; exact laneStep_reset_of_event htable (d := .backward) (by decide)
  next ha hb => rw [ha, hb]; exact laneStep_reset_of_quiet htable (by decide)

end Sys2Proof.Machine
end

section
/-!
What is taken from the accumulators and what is left in them (42_take_accumulators.md section 3, 70_reset_and_hazards.md
section 3): conservation along a trace, how many SCANs cannot wrap, and the torn pair.
-/

namespace Sys2Proof.Machine

/-! ### Along a trace -/

/-- Where each operation moves what it gains into a store or hands it out, the trace's totals balance. -/
theorem totalAlong_balance {p : Instr → State → Prop} {value : State → Int} {out gain : Instr → State → State → Int}
    (hstep : ∀ i s t, p i s → exec i s = .next t → out i s t + value t = value s + gain i s t) {ops : List Instr}
    {s t : State} (hall : everyOp p ops s) (hrun : runTrace ops s = .next t) :
    totalAlong out ops s + value t = value s + totalAlong gain ops s := by
  induction ops generalizing s with
  | nil => rw [next_inj hrun, totalAlong, totalAlong, zero_add, add_zero]
  | cons i is ih =>
    obtain ⟨u, hx, hrest⟩ := andThen_eq_next.mp hrun
    obtain ⟨hi, his⟩ := hall
    rw [hx] at his
    rw [totalAlong_cons hx, totalAlong_cons hx]
    have hhead := hstep i s u hi hx
    have htail := ih his hrest
    omega

/-- A level that each SCAN raises by at most 1 and no other operation raises stays within what the SCANs of a trace
allow, so what follows from that allowance holds of every operation. -/
theorem everyOp_of_scan_budget {p : Instr → State → Prop} {level : State → Nat} {bound : Nat}
    (hp : ∀ i s, level s + scansIn [i] ≤ bound → p i s)
    (hlevel : ∀ i s t, p i s → exec i s = .next t → level t ≤ level s + scansIn [i]) {ops : List Instr} {s : State}
    (h : level s + scansIn ops ≤ bound) : everyOp p ops s := by
  induction ops generalizing s with
  | nil => trivial
  | cons i is ih =>
    obtain ⟨t, hx⟩ := exec_total i s
    rw [scansIn_cons] at h
    have hi : p i s := hp i s (by omega)
    have hstep := hlevel i s t hi hx
    rw [everyOp, hx]
    exact ⟨hi, ih (by omega)⟩

/-! ### What one operation delivers, gains and leaves -/

section operation
variable {id : LaneId} {i : Instr} {s t : State}

/-- A take of the steps is no SCAN. -/
theorem eventOf_of_takesAcc (h : takesAcc i = some id) : eventOf id i s = none := by
  cases i with
  | scan => exact absurd h nofun
  | _ => rfl

/-- A take of the sum is no SCAN. -/
theorem eventOf_of_takesSum (h : takesSum i = some id) : eventOf id i s = none := by
  cases i with
  | scan => exact absurd h nofun
  | _ => rfl

/-- A take of the lane's steps delivers them (R150, R152). -/
theorem stepsDelivered_of_take (h : takesAcc i = some id) (hx : exec i s = .next t) :
    stepsDelivered id i t.rsp = (s.lane id).acc.toInt := by
  cases i with
  | takeSteps j | takeBoth j =>
    obtain rfl := Option.some_inj.mp h
    rw [← next_inj hx]
    simp [stepsDelivered]
  | _ => exact absurd h nofun

/-- An operation that does not take the lane's steps delivers none of them. -/
theorem stepsDelivered_of_no_take (h : takesAcc i ≠ some id) (r : Option Response) : stepsDelivered id i r = 0 := by
  cases i with
  | takeSteps j | takeBoth j =>
    cases r with
    | none => rfl
    | some v => exact if_neg fun e => h (congrArg some e)
  | _ => rfl

/-- A take of the lane's sum delivers it (R151, R152). -/
theorem sumDelivered_of_take (h : takesSum i = some id) (hx : exec i s = .next t) :
    sumDelivered id i t.rsp = (s.lane id).sum.toNat := by
  cases i with
  | takeSum j | takeBoth j =>
    obtain rfl := Option.some_inj.mp h
    rw [← next_inj hx]
    simp [sumDelivered]
  | _ => exact absurd h nofun

/-- An operation that does not take the lane's sum delivers none of it. -/
theorem sumDelivered_of_no_take (h : takesSum i ≠ some id) (r : Option Response) : sumDelivered id i r = 0 := by
  cases i with
  | takeSum j | takeBoth j =>
    cases r with
    | none => rfl
    | some v => exact if_neg fun e => h (congrArg some e)
  | _ => rfl

/-- The cycles of an event are counted up (R127). -/
theorem acceptedCycles_nonneg : 0 ≤ acceptedCycles id i s := by
  unfold acceptedCycles
  split <;> omega

/-- Where the steps do not wrap, an operation that does not take them adds its accepted steps exactly (R129, R133). -/
theorem acc_of_no_take (h : takesAcc i ≠ some id) (hlo : -128 ≤ (s.lane id).acc.toInt + acceptedSteps id i s)
    (hhi : (s.lane id).acc.toInt + acceptedSteps id i s ≤ 127) (hx : exec i s = .next t) :
    (t.lane id).acc.toInt = (s.lane id).acc.toInt + acceptedSteps id i s := by
  have hmod := acc_modEq_of_no_take h hx
  have htlo := (t.lane id).acc.le_toInt
  have hthi := (t.lane id).acc.toInt_lt
  rw [Int.ModEq] at hmod
  omega

/-- Where the sum does not wrap, an operation that does not take it adds its accepted cycles exactly (R129, R134). -/
theorem sum_of_no_take (h : takesSum i ≠ some id)
    (hhi : ((s.lane id).sum.toNat : Int) + acceptedCycles id i s ≤ 65535) (hx : exec i s = .next t) :
    ((t.lane id).sum.toNat : Int) = (s.lane id).sum.toNat + acceptedCycles id i s := by
  have hmod := sum_modEq_of_no_take h hx
  have hlt := (t.lane id).sum.isLt
  have hpos : 0 ≤ acceptedCycles id i s := acceptedCycles_nonneg
  rw [Int.ModEq] at hmod
  omega

/-- An event is a SCAN. -/
theorem scansIn_of_event {d : Dir} (h : eventOf id i s = some d) : scansIn [i] = 1 := by
  obtain ⟨a, b, rfl, -⟩ := eventOf_eq_some h
  rfl

/-- A SCAN adds at most one step to a lane, and no other operation adds any. -/
theorem natAbs_acceptedSteps_le : (acceptedSteps id i s).natAbs ≤ scansIn [i] := by
  cases he : eventOf id i s with
  | none => rw [acceptedSteps_of_no_event he]; exact Nat.zero_le _
  | some d =>
    rw [acceptedSteps_of_event he, scansIn_of_event he]
    cases accepts s.cfg d (s.lane id) <;> cases d <;> decide

/-- What a SCAN adds to a lane's sum it takes out of the idle counter, but for the cycle of the event itself (R127). -/
theorem acceptedCycles_add_idle_le (hx : exec i s = .next t) :
    acceptedCycles id i s + (t.lane id).idle ≤ (s.lane id).idle + scansIn [i] := by
  cases he : eventOf id i s with
  | none =>
    have hidle := idle_of_no_event he hx
    rw [acceptedCycles_of_no_event he]
    omega
  | some d =>
    obtain ⟨-, hidle, -⟩ := lane_after_event he hx
    rw [acceptedCycles_of_event he, scansIn_of_event he, hidle, cycles]
    split <;> omega

end operation

/-! ### The obligations -/

/-- Settles O43: a take delivers `ACC` and leaves 0, and every other operation adds its accepted steps exactly. -/
theorem stepsAreConserved : Obligations.StepsAreConserved := by
  unfold Obligations.StepsAreConserved
  intro id ops s t hnowrap hrun
  refine totalAlong_balance (value := fun x => (x.lane id).acc.toInt) (fun i x y hi hx => ?_) hnowrap hrun
  obtain ⟨hlo, hhi⟩ := hi
  by_cases htake : takesAcc i = some id
  · have hquiet := eventOf_of_takesAcc (s := x) htake
    rw [stepsDelivered_of_take htake hx, acceptedSteps_of_no_event hquiet,
      (accumulators_of_no_event hquiet hx).left, if_pos htake]
    rfl
  · rw [stepsDelivered_of_no_take htake, acc_of_no_take htake hlo hhi hx, zero_add]

/-- Settles O44: a take delivers `SUM` and leaves 0, and every other operation adds its accepted cycles exactly. -/
theorem cyclesAreConserved : Obligations.CyclesAreConserved := by
  unfold Obligations.CyclesAreConserved
  intro id ops s t hnowrap hrun
  refine totalAlong_balance (value := fun x => ((x.lane id).sum.toNat : Int)) (fun i x y hhi hx => ?_) hnowrap hrun
  by_cases htake : takesSum i = some id
  · have hquiet := eventOf_of_takesSum (s := x) htake
    rw [sumDelivered_of_take htake hx, acceptedCycles_of_no_event hquiet,
      (accumulators_of_no_event hquiet hx).right, if_pos htake]
    rfl
  · rw [sumDelivered_of_no_take htake, sum_of_no_take htake hhi hx, zero_add]

/-- Settles O45: the level is the magnitude of `ACC`, which a SCAN raises by at most 1 and a take sets to 0. -/
theorem fewerThan128ScansCannotWrapSteps : Obligations.FewerThan128ScansCannotWrapSteps := by
  unfold Obligations.FewerThan128ScansCannotWrapSteps
  intro id ops s hzero hscans
  refine everyOp_of_scan_budget (level := fun x => (x.lane id).acc.toInt.natAbs) (bound := 127) (fun i x h => ?within)
    (fun i x y hi hx => ?level) (by rw [hzero, BitVec.toInt_zero, Int.natAbs_zero]; omega)
  case within =>
    have hstep := natAbs_acceptedSteps_le (id := id) (i := i) (s := x)
    omega
  case level =>
    obtain ⟨hlo, hhi⟩ := hi
    by_cases htake : takesAcc i = some id
    · rw [(accumulators_of_no_event (eventOf_of_takesAcc htake) hx).left, if_pos htake]
      exact Nat.zero_le _
    · rw [acc_of_no_take htake hlo hhi hx]
      exact (Int.natAbs_add_le _ _).trans (Nat.add_le_add_left natAbs_acceptedSteps_le _)

/-- Settles O46: the level is `SUM + IDLE`: an accepted event moves the counter into the sum with one cycle more, an
idle scan raises the counter by at most 1, and a take sets the sum to 0. -/
theorem sumCannotWrapWithinItsBound : Obligations.SumCannotWrapWithinItsBound := by
  unfold Obligations.SumCannotWrapWithinItsBound
  intro id ops s hinv hzero hscans
  have hceil : s.cfg.C < 65535 := s.cfg.idleCeiling.isLt
  obtain ⟨hidle, -, -⟩ := hinv.lanes_inv id
  refine everyOp_of_scan_budget (level := fun x => (x.lane id).sum.toNat + (x.lane id).idle) (bound := 65535)
    (fun i x h => ?within) (fun i x y hi hx => ?level) (by rw [hzero, BitVec.toNat_ofNat]; omega)
  case within =>
    obtain ⟨y, hx⟩ := exec_total i x
    have hmove := acceptedCycles_add_idle_le (id := id) hx
    omega
  case level =>
    have hmove := acceptedCycles_add_idle_le (id := id) hx
    by_cases htake : takesSum i = some id
    · have hquiet := eventOf_of_takesSum (s := x) htake
      rw [(accumulators_of_no_event hquiet hx).right, if_pos htake, BitVec.toNat_ofNat]
      rw [acceptedCycles_of_no_event hquiet] at hmove
      omega
    · have hsum := sum_of_no_take htake hi hx
      omega

/-- One step from zero is that step. -/
theorem addStep_zero_toInt (d : Dir) : (addStep 0#8 d).toInt = dirValue d := by
  cases d <;> decide

/-- TAKE_STEPS answers `ACC` and clears it (R150). -/
theorem after_takeSteps {id : LaneId} {s t : State} (hx : exec (.takeSteps id) s = .next t) :
    t.rsp = some (stepsResponse (s.lane id).acc) ∧ t.lane id = clearAcc (s.lane id) := by
  rw [exec_takeSteps_eq_putLane] at hx
  rw [← next_inj hx]
  exact ⟨rfl, State.putLane_lane_self s id _ _⟩

/-- TAKE_SUM answers `SUM` and clears it (R151). -/
theorem after_takeSum {id : LaneId} {s t : State} (hx : exec (.takeSum id) s = .next t) :
    t.rsp = some (sumResponse (s.lane id).sum) ∧ t.lane id = clearSum (s.lane id) := by
  rw [exec_takeSum_eq_putLane] at hx
  rw [← next_inj hx]
  exact ⟨rfl, State.putLane_lane_self s id _ _⟩

/-- Settles O47: the take of the steps clears `ACC` before the step, the take of the sum clears `SUM` after it. -/
theorem tornPairMissesTheStep : Obligations.TornPairMissesTheStep := by
  unfold Obligations.TornPairMissesTheStep
  intro id d a b s s1 s2 s3 s4 s5 hx1 he hx2 hx3 hx4 hx5
  obtain ⟨hevent, haccept⟩ := acceptedEvent_eq_some.mp he
  obtain ⟨hacc2, hsum2⟩ := accumulators_of_accepted hevent haccept hx2
  obtain ⟨hrsp1, hlane1⟩ := after_takeSteps hx1
  obtain ⟨hrsp3, hlane3⟩ := after_takeSum hx3
  obtain ⟨hrsp4, hlane4⟩ := after_takeSteps hx4
  obtain ⟨hrsp5, -⟩ := after_takeSum hx5
  refine ⟨_, _, _, _, hrsp1, hrsp3, hrsp4, hrsp5, stepsOfTakeSteps_stepsResponse _, ?cyclesGone, ?lateStep, ?noCycles⟩
  case cyclesGone =>
    rw [sumOfResponse_sumResponse, hsum2, addCycles_toNat, hlane1]
    rfl
  case lateStep =>
    rw [stepsOfTakeSteps_stepsResponse, hlane3, clearSum, hacc2, hlane1]
    exact addStep_zero_toInt d
  case noCycles =>
    rw [sumOfResponse_sumResponse, hlane4, hlane3]
    rfl

end Sys2Proof.Machine
end

section
/-!
The switch debouncer from any state within the invariants (40_switch_debounce.md section 2): presses, releases and
edges, how the reads deliver them, and the reserved words' responses.
-/

namespace Sys2Proof.Machine

/-! ### The samples of a trace -/

/-- A block within the invariants tracks what its own buffer holds. -/
theorem TracksSamples.of_inv {s : State} (h : Inv s) : TracksSamples s.cfg s.slotsByAge s where
  cfg_eq := rfl
  widx_slot := h.widx_slot
  slots_eq := by
    have hlen : s.slotsByAge.length = s.cfg.debounceDepth := s.slotsByAge_perm.length_eq.trans h.buf_full
    rw [recentWindow, ← hlen, List.take_left]
  stable_or := h.stable_or

/-- A trace adds its samples to those tracked. -/
theorem TracksSamples.of_runTrace {c : Config} {recent : List Mask} {ops : List Instr} {s t : State}
    (h : TracksSamples c recent s) (hrun : runTrace ops s = .next t) :
    TracksSamples c ((samplesOf ops).reverse ++ recent) t :=
  runTrace_samples_induction (P := TracksSamples c) (fun sw _ _ h => h.swupd sw)
    (fun _ _ _ hcfg hsame h => h.of_sameDebounce hcfg hsame) hrun h

@[simp] theorem samplesOf_swupds (samples : List Mask) : samplesOf (swupds samples) = samples := by
  induction samples with
  | nil => rfl
  | cons sw samples ih => exact congrArg (sw :: ·) ih

/-- After a set sample of a switch and then clear ones, its stable bit is set while the set sample is recent (R102). -/
theorem stable_after_release {sw : Mask} {clear : List Mask} {s t : State} {j : Nat} (hinv : Inv s)
    (hset : sw.getLsbD j = true) (hclear : ∀ x ∈ clear, x.getLsbD j = false)
    (hrun : runTrace (swupds (sw :: clear)) s = .next t) :
    t.stable.getLsbD j = true ↔ clear.length < s.cfg.debounceDepth := by
  have h := (TracksSamples.of_inv hinv).of_runTrace hrun
  rw [samplesOf_swupds, List.reverse_cons, List.append_assoc, List.singleton_append] at h
  rw [h.stable_iff_sample, List.take_append, List.length_reverse]
  constructor
  case mp =>
    rintro ⟨x, hx, hbit⟩
    by_contra hlong
    have hold : s.cfg.debounceDepth - clear.length = 0 := by omega
    rw [hold, List.take_zero, List.append_nil] at hx
    have hnot := hclear x (List.mem_reverse.mp (List.mem_of_mem_take hx))
    exact Bool.false_ne_true (hnot.symm.trans hbit)
  case mpr =>
    intro hshort
    obtain ⟨k, hk⟩ : ∃ k, s.cfg.debounceDepth - clear.length = k + 1 := ⟨_, (Nat.succ_pred (by omega)).symm⟩
    exact ⟨sw, List.mem_append_right _ (by rw [hk]; exact List.mem_cons_self), hset⟩

/-! ### The edges -/

/-- SWUPD flags the edges between the stable state before it and the one after it (R103). -/
theorem edges_after_swupd {sw : Mask} {s t : State} (hx : exec (.swupd sw) s = .next t) :
    t.up = upEdges s.stable t.stable ∧ t.down = downEdges s.stable t.stable := by
  rw [← next_inj hx]
  exact ⟨rfl, rfl⟩

/-- A switch released by one change of the stable state is not released by the next. -/
theorem upEdges_and_upEdges (p q r : Mask) : upEdges p q &&& upEdges q r = 0#16 := by
  ext j h
  cases hq : q[j] <;> simp [hq]

/-- A switch pressed by one change of the stable state is not pressed by the next. -/
theorem downEdges_and_downEdges (p q r : Mask) : downEdges p q &&& downEdges q r = 0#16 := by
  ext j h
  cases hq : q[j] <;> simp [hq]

/-! ### The obligations about SWUPD -/

/-- Settles O50: the buffer is the window of the recent samples, in some order. -/
theorem bufferHoldsTheRecentSamples : Obligations.BufferHoldsTheRecentSamples := by
  unfold Obligations.BufferHoldsTheRecentSamples
  intro c ops t hc hrun
  have h := (TracksSamples.of_runTrace_reset hc hrun).buf_perm
  rwa [recentWindow_eq, List.length_reverse] at h

/-- Settles O51: the slot written holds the set bit, so the new stable state has it, and its edge is a press. -/
theorem pressIsImmediate : Obligations.PressIsImmediate := by
  unfold Obligations.PressIsImmediate
  intro sw s j hinv hopen hset
  have hslot : s.widx < s.buf.length := hinv.buf_full ▸ hinv.widx_slot
  obtain ⟨t, hx⟩ := exec_total (.swupd sw) s
  obtain ⟨hup, hdown⟩ := edges_after_swupd hx
  have hstable : t.stable.getLsbD j.val = true := by
    rw [← next_inj hx, updateStable_stable, pushSample_buf, orAll_getLsbD]
    exact ⟨sw, List.mem_set hslot sw, hset⟩
  exact ⟨t, hx, hstable, by rw [hdown, downEdges_getLsbD, hopen, hstable]; rfl,
    by rw [hup, upEdges_getLsbD, hopen]; rfl⟩

/-- Settles O52: the stable bit is set as long as the set sample is among the `DEBOUNCE_DEPTH` most recent ones, and
before the last clear sample it was one sample more recent. -/
theorem releaseTakesExactlyTheDepth : Obligations.ReleaseTakesExactlyTheDepth := by
  unfold Obligations.ReleaseTakesExactlyTheDepth
  intro sw clear s t j hinv hset hclear hne hrun
  have hafter := stable_after_release hinv hset hclear hrun
  obtain ⟨front, last, rfl⟩ := List.eq_nil_or_concat' clear |>.resolve_left hne
  rw [← List.cons_append, swupds, List.map_append, runTrace_append] at hrun
  obtain ⟨u, hfront, hlast⟩ := andThen_eq_next.mp hrun
  obtain ⟨v, hx, hend⟩ := andThen_eq_next.mp hlast
  obtain rfl := next_inj hend
  have hbefore := stable_after_release hinv hset (fun x hx => hclear x (List.mem_append_left _ hx)) hfront
  obtain ⟨hup, hdown⟩ := edges_after_swupd hx
  rw [List.length_append, List.length_singleton] at hafter ⊢
  refine ⟨hafter, ?up, ?down⟩
  case up =>
    rw [hup, upEdges_getLsbD, Bool.and_eq_true, Bool.not_eq_true', ← Bool.not_eq_true, hbefore, hafter]
    omega
  case down =>
    rw [hdown, downEdges_getLsbD, Bool.and_eq_false_iff, Bool.not_eq_false', ← Bool.not_eq_true, hbefore, hafter]
    omega

/-- Settles O53: the edges of the second SWUPD are against the stable state that those of the first led to. -/
theorem edgesLastOneUpdate : Obligations.EdgesLastOneUpdate := by
  unfold Obligations.EdgesLastOneUpdate
  intro sw sw' s t u hx hx'
  obtain ⟨hup, hdown⟩ := edges_after_swupd hx
  obtain ⟨hup', hdown'⟩ := edges_after_swupd hx'
  rw [hup, hdown, hup', hdown']
  exact ⟨downEdges_and_downEdges _ _ _, upEdges_and_upEdges _ _ _⟩

/-! ### The obligations about the reads -/

/-- Settles O54: a trace without a SWUPD leaves the masks, and a read answers its mask. -/
theorem statusMasksStayUntilTheNextUpdate : Obligations.StatusMasksStayUntilTheNextUpdate := by
  unfold Obligations.StatusMasksStayUntilTheNextUpdate
  intro sw between x s t u _ hnone hrun
  obtain ⟨-, -, hstable, hup, hdown⟩ := sameDebounce_of_no_samples hnone hrun
  rw [← hstable, ← hup, ← hdown]
  exact ⟨_, _, _, exec_rdStable u x, rfl, exec_rdUp u x, rfl, exec_rdDown u x, rfl⟩

/-- A SWUPD of a trace that keeps the schedule owes both reads to what follows it (R111). -/
theorem readsOwed_after_swupd {up down : Bool} {before after : List Instr} {sw : Mask}
    (h : readsOwed up down (before ++ .swupd sw :: after) = true) : readsOwed true true after = true := by
  induction before generalizing up down with
  | nil =>
    rw [List.nil_append, readsOwed, Bool.and_eq_true] at h
    exact h.right
  | cons i is ih =>
    cases i with
    | swupd sw' =>
      rw [List.cons_append, readsOwed, Bool.and_eq_true] at h
      exact ih h.right
    | _ => exact ih h

/-- The trace has the read, with no SWUPD before it. -/
def ReadBeforeUpdate (read : BitVec 4 → Instr) (ops : List Instr) : Prop :=
  ∃ (mid rest : List Instr) (x : BitVec 4), ops = mid ++ read x :: rest ∧ samplesOf mid = []

/-- A read before the next SWUPD is still that after any other operation in front. -/
theorem ReadBeforeUpdate.cons {read : BitVec 4 → Instr} {ops : List Instr} (h : ReadBeforeUpdate read ops) {i : Instr}
    (hi : samplesOf [i] = []) : ReadBeforeUpdate read (i :: ops) := by
  obtain ⟨mid, rest, x, rfl, hmid⟩ := h
  exact ⟨i :: mid, rest, x, rfl, by rw [← List.singleton_append, samplesOf_append, hi, hmid]; rfl⟩

/-- A trace makes the reads that it owes before its first SWUPD (R111). -/
theorem readBeforeUpdate_of_owed {up down : Bool} {ops : List Instr} (h : readsOwed up down ops = true) :
    (up = true → ReadBeforeUpdate .rdUp ops) ∧ (down = true → ReadBeforeUpdate .rdDown ops) := by
  induction ops generalizing up down with
  | nil =>
    rw [readsOwed, Bool.and_eq_true, Bool.not_eq_true', Bool.not_eq_true'] at h
    simp [h]
  | cons i is ih =>
    cases i with
    | swupd sw =>
      rw [readsOwed, Bool.and_eq_true, Bool.and_eq_true, Bool.not_eq_true', Bool.not_eq_true'] at h
      simp [h.left]
    | rdUp x => exact ⟨fun _ => ⟨[], is, x, rfl, rfl⟩, fun hd => ((ih h).right hd).cons rfl⟩
    | rdDown x => exact ⟨fun hu => ((ih h).left hu).cons rfl, fun _ => ⟨[], is, x, rfl, rfl⟩⟩
    | _ => exact ⟨fun hu => ((ih h).left hu).cons rfl, fun hd => ((ih h).right hd).cons rfl⟩

/-- A set bit of a mask is a set bit of the response to its read (R85). -/
theorem maskResponse_getLsbD {m : Mask} {j : Nat} (h : m.getLsbD j = true) : (maskResponse m).getLsbD j = true := by
  have hj : j < 16 := BitVec.lt_of_getLsbD h
  simp [maskResponse, h]
  omega

/-- Settles O55: the schedule owes both reads to the trace after the SWUPD, and the masks stay until they come. -/
theorem noEdgeIsLostUnderConsumerTick : Obligations.NoEdgeIsLostUnderConsumerTick := by
  unfold Obligations.NoEdgeIsLostUnderConsumerTick
  intro sw before after s t u j hsource hkeeps _ _
  rw [hsource] at hkeeps
  obtain ⟨hreadUp, hreadDown⟩ := readBeforeUpdate_of_owed (readsOwed_after_swupd hkeeps)
  refine ⟨fun hdown => ?down, fun hup => ?up⟩
  case down =>
    obtain ⟨mid, rest, x, hafter, hmid⟩ := hreadDown rfl
    obtain ⟨v, hrun⟩ := runTrace_total mid u
    obtain ⟨-, -, -, -, hsame⟩ := sameDebounce_of_no_samples hmid hrun
    exact ⟨mid, rest, x, v, _, _, hafter, hmid, hrun, exec_rdDown v x, rfl, maskResponse_getLsbD (hsame ▸ hdown)⟩
  case up =>
    obtain ⟨mid, rest, x, hafter, hmid⟩ := hreadUp rfl
    obtain ⟨v, hrun⟩ := runTrace_total mid u
    obtain ⟨-, -, -, hsame, -⟩ := sameDebounce_of_no_samples hmid hrun
    exact ⟨mid, rest, x, v, _, _, hafter, hmid, hrun, exec_rdUp v x, rfl, maskResponse_getLsbD (hsame ▸ hup)⟩

/-! ### Response words and reserved words -/

/-- Settles O10: each field of a response word comes back out of it, as bits and as a number. -/
theorem responseWordsCarryTheTypedResults : Obligations.ResponseWordsCarryTheTypedResults := by
  unfold Obligations.ResponseWordsCarryTheTypedResults
  intro acc sum m
  refine ⟨stepsOfTakeSteps_stepsResponse acc, BitVec.toInt_signExtend_of_le (by decide), fun k hlo hhi => ?sign,
    sumOfResponse_sumResponse sum, BitVec.toNat_setWidth_of_le (by decide), stepsOfTakeBoth_bothResponse acc sum,
    sumOfResponse_bothResponse acc sum, append_toNat acc sum, BitVec.toNat_setWidth_of_le (by decide), rfl⟩
  case sign =>
    rw [stepsResponse, BitVec.getLsbD_signExtend, if_neg (Nat.not_lt.mpr hlo), BitVec.msb_eq_getLsbD_last,
      decide_eq_true hhi, Bool.true_and]

/-- Every reserved operation answers zero and does nothing else (R88). -/
theorem exec_of_isReserved {i : Instr} (h : isReserved i = true) (s : State) :
    exec i s = .next { s with rsp := some 0x000000#24 } := by
  cases i with
  | reservedOp0 | reservedOp7 | reservedOp8F => rfl
  | _ => exact absurd h Bool.false_ne_true

/-- Settles O57: the words listed are those that decode to a reserved operation, and are counted. -/
theorem reservedWordsDoNothing : Obligations.ReservedWordsDoNothing := by
  unfold Obligations.ReservedWordsDoNothing
  refine ⟨fun x op s => ⟨exec_of_isReserved rfl s, exec_of_isReserved rfl s, exec_of_isReserved rfl s⟩,
    fun w s hw => exec_of_isReserved ?reserved s, by decide +kernel⟩
  case reserved =>
    have hword := toNat_eq_fields w
    have hid := (idField w).isLt
    rw [isReserved_decode_command]
    omega

end Sys2Proof.Machine
end
